-- ==== Sys2Proof/Word.lean ====
section
/-!
DEFINITION. The words of the display-multiplexer block: the 32-bit values its registers and masks hold, the
3-bit phase code, the 66-bit bus command word, and a word together with the place it stands in. Spec: 00_scope.md
R8, 30_encoding.md R60.
-/

namespace Sys2Proof

/-- A 32-bit value: the tick, `OUT`, `DIR`, `INV`, and a bus command's mask and value (R6, R20, R26). -/
abbrev Word := BitVec 32

/-- A phase code `ph[2:0]` (R62). -/
abbrev PhaseCode := BitVec 3

/-- A bus command word, `op[65:64] mask[63:32] value[31:0]` (R63). -/
abbrev BusWord := BitVec 66

/-- An instruction word WITH THE PLACE IT STANDS IN: "the kind is known from where the value stands (the `PH`
register or the bus command channel), never from its bits" (R69); the strobe is the third place (R60, R68). -/
inductive PlacedWord where
  | phase (code : PhaseCode)
  | bus (word : BusWord)
  | strobe (fire : BitVec 1)
  deriving DecidableEq, Repr

end Sys2Proof
end

