-- ==== Sys2Proof/Syntax.lean ====
section
/-!
DEFINITION. The instructions of the block: one constructor per row of spec/opcode_table.json (13 rows: eight
phases, two bus commands, two reserved bus ops, the firing strobe).
-/

namespace Sys2Proof

/-- The three formats of the opcode table (30_encoding.md R60). -/
inductive Format where
  | phase
  | bus
  | strobe
  deriving DecidableEq, Repr

/-- The block's operations (30_encoding.md R62, R64, R68; 92_eei_decisions.md D1). -/
inductive Instr where
  /-- Wait for a firing; accept a pending one (R111). -/
  | idle
  /-- Step a: read the tick from the context cell (R112). -/
  | read
  /-- Step b: compute position, digit value and visibility (R113). -/
  | compute
  /-- Step c: clear the digit-select bus (R114). -/
  | clrdig
  /-- Step d: write or blank the segment bus (R115). -/
  | seg
  /-- Step e: select the one digit (R116). -/
  | setdig
  /-- Step f: advance the tick (R117). -/
  | advance
  /-- Step g: return "continue" (R118). The row's mnemonic is RETURN. -/
  | ret
  /-- `CLR mask` (R130). -/
  | clr (mask : Word)
  /-- `PUT mask, value` (R131). -/
  | put (mask value : Word)
  /-- The reserved op 0b10 with the word's other bits (R64, R70). -/
  | reserved2 (mask value : Word)
  /-- The reserved op 0b11 with the word's other bits (R64, R70). -/
  | reserved3 (mask value : Word)
  /-- The firing strobe at level 1 (R68, R151). -/
  | fire
  deriving DecidableEq, Repr

/-- The format the opcode table gives an instruction's row. -/
def Instr.format : Instr → Format
  | .idle | .read | .compute | .clrdig | .seg | .setdig | .advance | .ret => .phase
  | .clr _ | .put _ _ | .reserved2 _ _ | .reserved3 _ _ => .bus
  | .fire => .strobe

/-- The format of the place a word stands in (R69). -/
def PlacedWord.format : PlacedWord → Format
  | .phase _ => .phase
  | .bus _ => .bus
  | .strobe _ => .strobe

/-- The eight phases of the sequencer: the instructions the block itself performs (R62). -/
def Instr.isPhase (i : Instr) : Bool := i.format = .phase

/-- The two reserved bus ops (R64, R70). -/
def Instr.isReserved : Instr → Bool
  | .reserved2 _ _ | .reserved3 _ _ => true
  | .idle | .read | .compute | .clrdig | .seg | .setdig | .advance | .ret | .clr _ | .put _ _ | .fire => false

end Sys2Proof
end

