-- ==== Sys2Proof/WellFormed.lean ====
section
/-!
DEFINITION. Which instruction terms are words the spec admits (30_encoding.md R65).
-/

namespace Sys2Proof

/-- R65 on the syntax: a `PUT` has `value & ~mask = 0`. A `CLR` carries no value (R65 fixes it at 0), a phase and
the strobe carry no field, and R70 reserves a word by its op alone, whatever its other bits are. -/
def Instr.wellFormed : Instr → Bool
  | .put mask value => value &&& ~~~mask = 0#32
  | .idle | .read | .compute | .clrdig | .seg | .setdig | .advance | .ret => true
  | .clr _ | .reserved2 _ _ | .reserved3 _ _ | .fire => true

end Sys2Proof
end

