-- ==== Sys2Proof/Decode.lean ====
section
/-!
DEFINITION. Decoding of the three kinds of words, total on each (30_encoding.md R62-R65, R68-R70), the encoder
written from the same tables, and the reading of the opcode table's words.
-/

namespace Sys2Proof

/-! The phase codes of R62. -/

abbrev Ph.idle : PhaseCode := 0b000#3
abbrev Ph.read : PhaseCode := 0b001#3
abbrev Ph.compute : PhaseCode := 0b010#3
abbrev Ph.clrdig : PhaseCode := 0b011#3
abbrev Ph.seg : PhaseCode := 0b100#3
abbrev Ph.setdig : PhaseCode := 0b101#3
abbrev Ph.advance : PhaseCode := 0b110#3
abbrev Ph.ret : PhaseCode := 0b111#3

/-- `op[65:64]` of a bus command word (R63). -/
def busOp (w : BusWord) : BitVec 2 := w.extractLsb' 64 2

/-- `mask[63:32]` of a bus command word (R63). -/
def busMask (w : BusWord) : Word := w.extractLsb' 32 32

/-- `value[31:0]` of a bus command word (R63). -/
def busValue (w : BusWord) : Word := w.extractLsb' 0 32

/-- The word `{op, mask, value}` (R63). -/
def busWord (op : BitVec 2) (mask value : Word) : BusWord := (op ++ mask) ++ value

/-- The op codes of R64. -/
abbrev Op.clr : BitVec 2 := 0b00#2
abbrev Op.put : BitVec 2 := 0b01#2
abbrev Op.reserved2 : BitVec 2 := 0b10#2
abbrev Op.reserved3 : BitVec 2 := 0b11#2

/-- What decoding says of a word: "every 3-bit, 66-bit or 1-bit value has a verdict" (R68). -/
inductive Verdict where
  /-- The word is this instruction. The two reserved ops are named as instructions of the table here; their
  meaning is the refusal R68 and R70 ask for (DESIGN CHOICE, safe, log 9). -/
  | instr (i : Instr)
  /-- The strobe at level 0: "no request" (R68). -/
  | noRequest
  /-- A `CLR` or `PUT` word that fails R65: refused by the decoder (R65, R70). -/
  | illFormed (word : BusWord)
  deriving DecidableEq, Repr

/-- R62: all eight codes are used. -/
def decodePhase (p : PhaseCode) : Instr :=
  if p = Ph.idle then .idle
  else if p = Ph.read then .read
  else if p = Ph.compute then .compute
  else if p = Ph.clrdig then .clrdig
  else if p = Ph.seg then .seg
  else if p = Ph.setdig then .setdig
  else if p = Ph.advance then .advance
  else .ret

/-- R64, R65, R68, R70: by `op`; a `CLR` needs value 0, a `PUT` needs `value & ~mask = 0`. -/
def decodeBus (w : BusWord) : Verdict :=
  if busOp w = Op.clr then
    if busValue w = 0#32 then .instr (.clr (busMask w)) else .illFormed w
  else if busOp w = Op.put then
    if busValue w &&& ~~~busMask w = 0#32 then .instr (.put (busMask w) (busValue w)) else .illFormed w
  else if busOp w = Op.reserved2 then .instr (.reserved2 (busMask w) (busValue w))
  else .instr (.reserved3 (busMask w) (busValue w))

/-- R68: `fire = 1` is a request, `fire = 0` is none. -/
def decodeStrobe (fire : BitVec 1) : Verdict :=
  if fire = 1#1 then .instr .fire else .noRequest

/-- Decoding by the place a word stands in (R68, R69). -/
def decode : PlacedWord → Verdict
  | .phase p => .instr (decodePhase p)
  | .bus w => decodeBus w
  | .strobe b => decodeStrobe b

/-- The word of an instruction, in its place (R62, R63, R64, R68). -/
def encode : Instr → PlacedWord
  | .idle => .phase Ph.idle
  | .read => .phase Ph.read
  | .compute => .phase Ph.compute
  | .clrdig => .phase Ph.clrdig
  | .seg => .phase Ph.seg
  | .setdig => .phase Ph.setdig
  | .advance => .phase Ph.advance
  | .ret => .phase Ph.ret
  | .clr mask => .bus (busWord Op.clr mask 0#32)
  | .put mask value => .bus (busWord Op.put mask value)
  | .reserved2 mask value => .bus (busWord Op.reserved2 mask value)
  | .reserved3 mask value => .bus (busWord Op.reserved3 mask value)
  | .fire => .strobe 1#1

/-- Which placed word the opcode table's number `w` of `nbits` bits is: one bit is a strobe (R60), up to a byte a
phase code (3 bits, R60), anything longer a bus command word (66 bits, R60); `none` where the number has a bit
above its word. DESIGN CHOICE (safe, log 7): R69 tells kinds apart by place, which a table number does not carry;
written in one byte, a strobe word and a phase word are the same number, and the byte is read as a phase word. -/
def tableWord (nbits w : Nat) : Option PlacedWord :=
  if nbits ≤ 1 then
    if w < 2 then some (.strobe (BitVec.ofNat 1 w)) else none
  else if nbits ≤ 8 then
    if w < 2 ^ 3 then some (.phase (BitVec.ofNat 3 w)) else none
  else
    if w < 2 ^ 66 then some (.bus (BitVec.ofNat 66 w)) else none

/-- The instruction a verdict names, if it names one. -/
def Verdict.instr? : Verdict → Option Instr
  | .instr i => some i
  | .noRequest | .illFormed _ => none

/-- The instruction the decoder reads from the opcode table's number `w` of `nbits` bits. -/
def decodeTableWord (nbits w : Nat) : Option Instr :=
  match tableWord nbits w with
  | some p => (decode p).instr?
  | none => none

end Sys2Proof
end

