-- ==== Sys2Proof/Config.lean ====
section
/-!
DEFINITION. The block's open parameters (00_scope.md R6, 10_state.md R30), as one record of raw data that the
machine holds and that `Machine.paramCheck` checks; the reference configuration of R6; and the two free values.
-/

namespace Sys2Proof

/-- The parameters of a build (R6), fixed when the block is built (R30). They are raw: which of them are this
hardware is said by `Machine.paramCheck`, which refuses the others by name (R156, U12). `DIVIDERS`, the widths
and `INVERT_SEG` are fixed by R6 and are no fields. -/
structure Config where
  /-- `DIGITS_NUM`: 8, any other value is refused. -/
  digitsNum : Nat
  /-- `ROUND_PER_COUNT`, OPEN: at least 1, with `PERIOD` at most 2^32. -/
  roundPerCount : Nat
  /-- `TICK_DURATION_US`, OPEN: positive; only the registration passes it on (R150). -/
  tickDurationUs : Nat
  /-- `SEG_TABLE`, OPEN: the ROM, exactly 10 entries, each below 2^8 (R82). -/
  segTable : List Nat
  /-- `SEG_BASE`, OPEN: the lowest pin of the segment bus. -/
  segBase : Nat
  /-- `DIGIT_BASE`, OPEN: the lowest pin of the digit-select bus. -/
  digitBase : Nat
  /-- `INVERT_DIG`, OPEN: whether the digit-select pads are inverted. -/
  invertDig : Bool
  /-- `REG_OK`, the boot draw: whether timer registration succeeds. -/
  regOk : Bool
  deriving DecidableEq, Repr

/-- The reference table of 40_segment_encoder.md R81.
PRESUMED (unsafe, log 5): the spec marks these ten values as general knowledge, not the source's. -/
def Config.referenceTable : List Nat :=
  [0x3F, 0x06, 0x5B, 0x4F, 0x66, 0x6D, 0x7D, 0x07, 0x7F, 0x6F]

/-- The reference configuration of R6. DESIGN CHOICE (unsafe, log 3): the machine is reset with it; R6 gives no
reference value for `TICK_DURATION_US`, and 1 is the least it admits. -/
def Config.reference : Config where
  digitsNum := 8
  roundPerCount := 25
  tickDurationUs := 1
  segTable := Config.referenceTable
  segBase := 0
  digitBase := 8
  invertDig := false
  regOk := true

/-- FREE VALUE (log 1): how many phases pass before the timer's next strobe, for the delay number `n`. The spec keeps
no time (R184): it does not say between which phases a period elapses. That a delay is a natural number is the
fairness of R153: the strobe always comes (log 17). No body: nothing can be proved of a value. -/
opaque Config.freeDelay : Nat → Nat

/-- FREE VALUE (log 6): the drive-strength level boot sets for a pin. The levels are not in the source (R135). -/
opaque Config.driveLevel : Nat → Nat

end Sys2Proof
end

