-- ==== Sys2Proof/Machine/State.lean ====
section
/-!
DEFINITION. The state of the block as plain data (10_state.md R20-R33 and the pieces other rules name), its named
updates, the reasons a step can stop, and the state at reset.
-/

namespace Sys2Proof.Machine

/-- The parameters whose constraint a configuration can fail (R6, R27, R82; 93_implementation_defined.md U12). -/
inductive Param where
  | digitsNum
  | roundPerCount
  | period
  | tickDurationUs
  | segBase
  | digitBase
  | busOverlap
  | segTable
  deriving DecidableEq, Repr

/-- Why the machine stops. -/
inductive Fault where
  /-- `RegistrationFailed`, code 1 (R154, R156). Raised by every step from a state with `REG_FAIL = 1` or a
  terminated process. Safe: the spec gives the block no further step there. -/
  | registrationFailed
  deriving DecidableEq, Repr

/-- Why the model gives a step no meaning. The refusals of R156, each with the value R156 records. -/
inductive Refusal where
  /-- An instruction without a meaning yet. Raised by nothing in this model. Safe. -/
  | notModelled (mnemonic : String)
  /-- A bus word with the reserved op 0b10 or 0b11 (R70). Raised by the two reserved instructions. Safe. -/
  | reservedBusOp (word : BusWord)
  /-- A `CLR` or `PUT` word that fails R65 (R70). Raised by a step that finds one in the channel, and by `PUT` as
  a term that no decoded word gives. Safe. -/
  | illFormedBusWord (word : BusWord)
  /-- `encode` of an argument from 10 (R84). Raised by SEG when `VIS = 1` and `DVAL` is from 10, which no run
  reaches. Safe. -/
  | encodeArgument (d : Nat)
  /-- A configuration that is not this hardware (R6, R27, R82). Raised by every step of such a state, and by SEG
  on a table without the entry. Safe. -/
  | configNotThisHardware (p : Param)
  /-- A launch that does not meet R172 items 1 and 2 (U9, D33). Raised by a step that registers the timer or runs
  an instruction while the pins are not configured. Safe. -/
  | launchPrecondition
  deriving DecidableEq, Repr

/-- Where the main program stands (70_reset_and_hazards.md R170, R173-R175; R154). -/
inductive Boot where
  /-- At process start: the pins are configured next (R173). -/
  | configurePins
  /-- The timer is registered next (R174). -/
  | registerTimer
  /-- The idle main loop runs, and the callback preempts it (R175, R158). -/
  | mainLoop
  /-- The process has terminated (R154). -/
  | terminated
  deriving DecidableEq, Repr

/-- The two execution contexts (R158). -/
inductive Context where
  | thread
  | interrupt
  deriving DecidableEq, Repr

/-- One event of the bus history: the command word issued and `OUT` after it. R133 emits `OUT`; the word is kept
beside it, as V3's "event word" and D19's "event log" have it (DEDUCED, safe, log 14). -/
structure BusEvent where
  word : BusWord
  out : Word
  deriving DecidableEq, Repr

/-- The state. Each field names the rule that gives it. -/
structure State where
  /-- The build's parameters, read-only (R6, R30). -/
  cfg : Config
  /-- `TICK`, the content of the context cell (R20, R41). -/
  tick : Word
  /-- `PH` (R22). -/
  ph : PhaseCode
  /-- `T_L` (R24). In IDLE the four latches' values are unspecified there; they are kept (log 29). -/
  tl : Word
  /-- `POS` (R24). -/
  pos : BitVec 3
  /-- `DVAL` (R24). -/
  dval : BitVec 4
  /-- `VIS` (R24, R25). -/
  vis : BitVec 1
  /-- `OUT`, bit n for pin n (R26). -/
  out : Word
  /-- `DIR` (R30). -/
  dir : Word
  /-- `INV` (R30, R134). -/
  inv : Word
  /-- The pins initialised as GPIO (R172 item 1). -/
  gpio : Word
  /-- Drive strength, one level a pin (R30). -/
  drive : Vector Nat 32
  /-- `REG_FAIL` (R31). -/
  regFail : BitVec 1
  /-- `FIRE_PEND` (R32). -/
  firePend : BitVec 1
  /-- The periodic registration: the registered `period_us`, negative for the exact interval (R150); `none` while
  the timer is not registered (R33). -/
  timer : Option Int
  /-- Where the main program stands (R170-R175). -/
  boot : Boot
  /-- The bus-event history, oldest first (R11, R133). -/
  history : List BusEvent
  /-- The bus command channel: a word presented from outside (R69, R70; log 2). -/
  busIn : Option BusWord
  /-- The timer firing strobe `fire` (R60, R68). -/
  strobe : BitVec 1
  /-- The MODEL's own field: how many phases pass before an armed timer's next strobe (log 1). -/
  due : Nat
  /-- The MODEL's own counter of the delays taken, to which the free delay is applied (log 1). -/
  draws : Nat
  deriving DecidableEq, Repr

/-! Named updates. -/

def State.withPh (s : State) (p : PhaseCode) : State := { s with ph := p }
def State.withTick (s : State) (v : Word) : State := { s with tick := v }
def State.withTl (s : State) (v : Word) : State := { s with tl := v }
def State.withSelection (s : State) (p : BitVec 3) (d : BitVec 4) (v : BitVec 1) : State :=
  { s with pos := p, dval := d, vis := v }
def State.withOut (s : State) (v : Word) : State := { s with out := v }
def State.withHistory (s : State) (h : List BusEvent) : State := { s with history := h }
def State.withPins (s : State) (gpio dir inv : Word) (drive : Vector Nat 32) : State :=
  { s with gpio := gpio, dir := dir, inv := inv, drive := drive }
def State.withRegFail (s : State) (b : BitVec 1) : State := { s with regFail := b }
def State.withFirePend (s : State) (b : BitVec 1) : State := { s with firePend := b }
def State.withTimer (s : State) (t : Option Int) : State := { s with timer := t }
def State.withBoot (s : State) (b : Boot) : State := { s with boot := b }
def State.withBusIn (s : State) (w : Option BusWord) : State := { s with busIn := w }
def State.withStrobe (s : State) (b : BitVec 1) : State := { s with strobe := b }
def State.withDue (s : State) (n : Nat) : State := { s with due := n }
def State.withDraws (s : State) (n : Nat) : State := { s with draws := n }

/-- The state at reset of a build with parameters `c` (R33, R170). `TICK`, `PH`, `REG_FAIL`, `FIRE_PEND` and the
timer are as R33 states them; every other register is unspecified there and is 0 by DESIGN CHOICE (unsafe, log 4);
the channel, strobe, history, delay and counter are empty (log 20). -/
def State.resetWith (c : Config) : State where
  cfg := c
  tick := 0#32
  ph := 0b000#3
  tl := 0#32
  pos := 0#3
  dval := 0#4
  vis := 0#1
  out := 0#32
  dir := 0#32
  inv := 0#32
  gpio := 0#32
  drive := Vector.replicate 32 0
  regFail := 0#1
  firePend := 0#1
  timer := none
  boot := .configurePins
  history := []
  busIn := none
  strobe := 0#1
  due := 0
  draws := 0

/-- The machine right after reset, built with the reference configuration (R6, R33; DESIGN CHOICE, log 3). -/
def State.reset : State := State.resetWith Config.reference

end Sys2Proof.Machine
end

