-- ==== Sys2Proof/Machine/Ops.lean ====
section
/-!
DEFINITION. The named operations over the state: the context cell (20_memory.md R41), the bus commands
(43_bus_driver.md R130, R131, R133), interrupt entry and return (60_exceptions.md R151, R159, R160), the one
failure (R154), the Bus Driver's boot operations (R135), and the views of R134 and R158.
-/

namespace Sys2Proof.Machine

/-- `MemRead(CTX, 4)`: the context cell is the tick register (R41). -/
def memReadCtx (s : State) : Word := s.tick

/-- `MemWrite(CTX, 4, v)`, that is `TICK <- v` (R41). -/
def memWriteCtx (v : Word) (s : State) : State := s.withTick v

/-- `OUT` after `CLR mask` (R130). -/
def clrValue (mask out : Word) : Word := out &&& ~~~mask

/-- `OUT` after `PUT mask, value` (R131): a masked write. -/
def putValue (mask value out : Word) : Word := (out &&& ~~~mask) ||| (value &&& mask)

/-- `emit`: append an event to the bus history (R11, R133). -/
def emit (e : BusEvent) (s : State) : State := s.withHistory (s.history ++ [e])

/-- `BusClr(mask)` (R130): one indivisible update of `OUT`, recorded. -/
def busClr (mask : Word) (s : State) : State :=
  emit ⟨busWord Op.clr mask 0#32, clrValue mask s.out⟩ (s.withOut (clrValue mask s.out))

/-- `BusPut(mask, value)` (R131): one indivisible update of `OUT`, recorded. -/
def busPut (mask value : Word) (s : State) : State :=
  emit ⟨busWord Op.put mask value, putValue mask value s.out⟩ (s.withOut (putValue mask value s.out))

/-- The observation: the values of `OUT` after each bus command, oldest first (R133). -/
def busHistory (s : State) : List Word := s.history.map (·.out)

/-- The timer's posting: `FIRE_PEND <- 1`; a posting while it is set changes nothing (R151, D20). -/
def postFiring (s : State) : State := s.withFirePend 1#1

/-- INTERRUPT ENTRY, on acceptance in IDLE (R111, R151, R159): `FIRE_PEND` is cleared and the callback starts at
READ. No state of the block is saved and there is no vector (R159). -/
def acceptFiring (s : State) : State := (s.withFirePend 0#1).withPh Ph.read

/-- INTERRUPT RETURN (R118, R160): `PH <- IDLE` only; the timer stays as it is armed. The latches, whose values in
IDLE are unspecified (R24, U8), keep the firing's values (DESIGN CHOICE, unsafe, log 29). -/
def returnFromFiring (s : State) : State := s.withPh Ph.idle

/-- `raise RegistrationFailed()` (R154): `REG_FAIL <- 1` and the process terminates. The report and the exit value
are not modelled (U16, log 19). -/
def raiseRegistrationFailed (s : State) : State := (s.withRegFail 1#1).withBoot .terminated

/-- The timer is armed: its registration succeeded (R151, R174). -/
def armed (s : State) : Bool := s.timer.isSome

/-- A new delay of the timer begins: a free number of phases (R153, R184; log 1). -/
def beginDelay (s : State) : State := (s.withDue (Config.freeDelay s.draws)).withDraws (s.draws + 1)

/-- The execution context (R158). A firing is in progress exactly when `PH` is not IDLE (R23).
DEDUCED (safe, log 15): it is a view of `PH` and has no storage of its own (R29). -/
def context (s : State) : Context := if s.ph = Ph.idle then .thread else .interrupt

/-- The pad levels: the pad of pin n drives `OUT[n] ^ INV[n]` (R134). -/
def pads (s : State) : Word := s.out ^^^ s.inv

/-- `init(mask)` (R135): the pins of `mask` are GPIOs. -/
def initGpio (mask : Word) (s : State) : State :=
  s.withPins (s.gpio ||| mask) s.dir s.inv s.drive

/-- `set_direction_out(mask)` (R135, R30): the pins of `mask` are outputs. -/
def setDirectionOut (mask : Word) (s : State) : State :=
  s.withPins s.gpio (s.dir ||| mask) s.inv s.drive

/-- `set_output_override_invert` over the pins of `mask` (R135, R30): they are inverted where `bits` has a 1. -/
def setInvert (mask bits : Word) (s : State) : State :=
  s.withPins s.gpio s.dir ((s.inv &&& ~~~mask) ||| (bits &&& mask)) s.drive

/-- `set_drive_strength` over the pins of `mask` (R135, R30). The levels are a free value (log 6). -/
def setDriveStrength (mask : Word) (s : State) : State :=
  s.withPins s.gpio s.dir s.inv
    (Vector.ofFn fun i => if mask.getLsbD i.val then Config.driveLevel i.val else s.drive[i])

end Sys2Proof.Machine
end

