-- ==== Sys2Proof/Machine/BusDriver.lean ====
section
/-!
DEFINITION. The meanings of the bus commands (43_bus_driver.md R130, R131) and of the two reserved ops
(30_encoding.md R70).
-/

namespace Sys2Proof.Machine

/-- `CLR mask` (R130). -/
def execClr (mask : Word) (s : State) : Host.Outcome State Fault Refusal :=
  .next (busClr mask s)

/-- `PUT mask, value` (R131), whose operands have `value & ~mask = 0`; other operands are refused and never given
an effect (R65, R70; DEDUCED, safe, log 21). -/
def execPut (mask value : Word) (s : State) : Host.Outcome State Fault Refusal :=
  if value &&& ~~~mask = 0#32 then .next (busPut mask value s)
  else .refused (.illFormedBusWord (busWord Op.put mask value))

/-- The reserved op 0b10: "a model ... must refuse it, never give it an effect" (R70). The state is not read. -/
def execReserved2 (mask value : Word) (_s : State) : Host.Outcome State Fault Refusal :=
  .refused (.reservedBusOp (busWord Op.reserved2 mask value))

/-- The reserved op 0b11 (R70). The state is not read. -/
def execReserved3 (mask value : Word) (_s : State) : Host.Outcome State Fault Refusal :=
  .refused (.reservedBusOp (busWord Op.reserved3 mask value))

end Sys2Proof.Machine
end

