-- ==== Sys2Proof/Machine/Flags.lean ====
section
/-!
DEFINITION. The block's only flag (10_state.md R25): the visibility gate of 41_digit_multiplexer.md R96.
-/

namespace Sys2Proof.Machine

/-- R96: `visible = ((count mod 2) == (position / 4))`. -/
def visible (count position : Nat) : Bool := count % 2 == position / 4

/-- R25: `VIS` is 1 when visible and 0 otherwise. -/
def visFlag (v : Bool) : BitVec 1 := if v then 1#1 else 0#1

end Sys2Proof.Machine
end

