-- ==== Sys2Proof/Machine/Operands.lean ====
section
/-!
DEFINITION. The operands of the sequencer's commands: the period and the masks (00_scope.md R6, R7), the Digit
Multiplexer `select` (41_digit_multiplexer.md R90-R96), the Segment Encoder `encode` (40_segment_encoder.md R80,
R84), and the lanes of 30_encoding.md R66.
-/

namespace Sys2Proof.Machine

/-- `DIVIDERS`, fixed (R6, R94). -/
def dividers : List Nat := [1, 10, 100, 1000]

/-- `PERIOD = DIGITS_NUM * ROUND_PER_COUNT * 10000` (R6). -/
def period (c : Config) : Nat := c.digitsNum * c.roundPerCount * 10000

/-- `SEG_MASK` (R7). -/
def segMask (c : Config) : Word := (0xFF#8).zeroExtend 32 <<< c.segBase

/-- `DIGIT_MASK` (R7). -/
def digitMask (c : Config) : Word := BitVec.ofNat 32 (2 ^ c.digitsNum - 1) <<< c.digitBase

/-- `DIG_BIT(p)` (R7). -/
def digBit (c : Config) (p : Nat) : Word := 1#32 <<< (c.digitBase + p)

/-- The pins of both buses, `SEG_MASK | DIGIT_MASK` (R26). -/
def busMaskBoth (c : Config) : Word := segMask c ||| digitMask c

/-- R91. -/
def position (c : Config) (t : Nat) : Nat := t % c.digitsNum

/-- R92, evaluated left to right. -/
def count (c : Config) (t : Nat) : Nat := t / c.roundPerCount / c.digitsNum

/-- R94: the decimal place of a position. -/
def place (p : Nat) : Nat := p % 4

/-- R95: `(count / DIVIDERS[place]) mod 10`. -/
def digitValue (cnt p : Nat) : Nat := cnt / dividers.getD (place p) 1 % 10

/-- The outputs of the Digit Multiplexer (R90; the contract's `displayed_digit` is `digitValue`, C5). -/
structure Selection where
  position : Nat
  digitValue : Nat
  visible : Bool
  deriving DecidableEq, Repr

/-- `select(t)`, the Digit Multiplexer (R90). -/
def select (c : Config) (t : Nat) : Selection where
  position := position c t
  digitValue := digitValue (count c t) (position c t)
  visible := visible (count c t) (position c t)

/-- `encode(d)`, the Segment Encoder (R80): the ROM entry, with no transformation (R85); an argument from 10 is
refused rather than indexed (R84), and so is a table without the 8-bit entry (R82). -/
def segEncode (c : Config) (d : Nat) : Except Refusal (BitVec 8) :=
  if 10 ≤ d then .error (.encodeArgument d)
  else
    match c.segTable[d]? with
    | some v => if v < 2 ^ 8 then .ok (BitVec.ofNat 8 v) else .error (.configNotThisHardware .segTable)
    | none => .error (.configNotThisHardware .segTable)

/-- A segment pattern on the segment bus: `zext_32(pattern) << SEG_BASE` (R66). -/
def segLane (c : Config) (pattern : BitVec 8) : Word := pattern.zeroExtend 32 <<< c.segBase

/-- The tick after `t` (R117): `(t + 1) mod PERIOD` over the naturals. -/
def nextTick (c : Config) (t : Word) : Word := BitVec.ofNat 32 ((t.toNat + 1) % period c)

end Sys2Proof.Machine
end

