-- ==== Sys2Proof/Machine/Sequencer.lean ====
section
/-!
DEFINITION. The meanings of the eight phases of the port-write sequencer (42_tick_scheduler.md R111-R118).
-/

namespace Sys2Proof.Machine

/-- IDLE (R111): accept a pending firing; otherwise the sequencer waits, which is a next state with nothing
changed (DESIGN CHOICE, safe, log 16). -/
def execIdle (s : State) : Host.Outcome State Fault Refusal :=
  if s.regFail = 0#1 ∧ s.firePend = 1#1 then .next (acceptFiring s) else .next s

/-- READ, step a (R112). -/
def execRead (s : State) : Host.Outcome State Fault Refusal :=
  .next ((s.withTl (memReadCtx s)).withPh Ph.compute)

/-- COMPUTE, step b (R113). -/
def execCompute (s : State) : Host.Outcome State Fault Refusal :=
  let r := select s.cfg s.tl.toNat
  .next ((s.withSelection (BitVec.ofNat 3 r.position) (BitVec.ofNat 4 r.digitValue)
    (visFlag r.visible)).withPh Ph.clrdig)

/-- CLRDIG, step c (R114). -/
def execClrdig (s : State) : Host.Outcome State Fault Refusal :=
  .next ((busClr (digitMask s.cfg) s).withPh Ph.seg)

/-- SEG, step d (R115): the whole pattern when `VIS = 1`, a cleared segment bus when `VIS = 0`. `encode` refuses
a `DVAL` from 10 (R84), which COMPUTE never gives, and the phase with it (DEDUCED, safe, log 28). -/
def execSeg (s : State) : Host.Outcome State Fault Refusal :=
  if s.vis = 1#1 then
    match segEncode s.cfg s.dval.toNat with
    | .ok pattern => .next ((busPut (segMask s.cfg) (segLane s.cfg pattern) s).withPh Ph.setdig)
    | .error r => .refused r
  else .next ((busClr (segMask s.cfg) s).withPh Ph.setdig)

/-- SETDIG, step e (R116). -/
def execSetdig (s : State) : Host.Outcome State Fault Refusal :=
  .next ((busPut (digitMask s.cfg) (digBit s.cfg s.pos.toNat) s).withPh Ph.advance)

/-- ADVANCE, step f (R117): the operand is `TICK`, and no latch is read after phase e (R24). R117's pseudocode
writes `T_L` for it, which is equal there (DEDUCED, safe, log 27). -/
def execAdvance (s : State) : Host.Outcome State Fault Refusal :=
  .next ((memWriteCtx (nextTick s.cfg s.tick) s).withPh Ph.ret)

/-- RETURN, step g (R118). The latches keep their values into IDLE (DESIGN CHOICE, unsafe, log 29). -/
def execReturn (s : State) : Host.Outcome State Fault Refusal :=
  .next (returnFromFiring s)

end Sys2Proof.Machine
end

