-- ==== Sys2Proof/Machine/Timer.lean ====
section
/-!
DEFINITION. The meaning of the firing strobe and the sampling of the strobe line (60_exceptions.md R151-R153).
-/

namespace Sys2Proof.Machine

/-- FIRE (R151, R68): a period has elapsed, `FIRE_PEND` is set, whatever the sequencer is doing (R152). -/
def execFire (s : State) : Host.Outcome State Fault Refusal :=
  .next (postFiring s)

/-- The strobe line after a phase: an armed timer raises it when its delay has passed, and a new free delay begins
(DESIGN CHOICE, safe, log 1); every delay passes, so postings recur (R153, log 17). A timer that is not registered
never raises it (R33, R151). -/
def sampleStrobe (s : State) : State :=
  if armed s then
    match s.due with
    | 0 => (beginDelay s).withStrobe 1#1
    | n + 1 => (s.withDue n).withStrobe 0#1
  else s.withStrobe 0#1

end Sys2Proof.Machine
end

