-- ==== Sys2Proof/Machine/Dispatch.lean ====
section
/-!
DEFINITION. The dispatch: one arm per row of spec/opcode_table.json.
-/

namespace Sys2Proof.Machine

/-- One direct call of its meaning for every instruction. -/
def exec (i : Instr) (s : State) : Host.Outcome State Fault Refusal :=
  match i with
  -- the phases of the sequencer (R111-R118)
  | .idle => Sys2Proof.Machine.execIdle s
  | .read => Sys2Proof.Machine.execRead s
  | .compute => Sys2Proof.Machine.execCompute s
  | .clrdig => Sys2Proof.Machine.execClrdig s
  | .seg => Sys2Proof.Machine.execSeg s
  | .setdig => Sys2Proof.Machine.execSetdig s
  | .advance => Sys2Proof.Machine.execAdvance s
  | .ret => Sys2Proof.Machine.execReturn s
  -- the bus commands (R130, R131) and the reserved ops (R70)
  | .clr mask => Sys2Proof.Machine.execClr mask s
  | .put mask value => Sys2Proof.Machine.execPut mask value s
  | .reserved2 mask value => Sys2Proof.Machine.execReserved2 mask value s
  | .reserved3 mask value => Sys2Proof.Machine.execReserved3 mask value s
  -- the timer firing strobe (R151)
  | .fire => Sys2Proof.Machine.execFire s

end Sys2Proof.Machine
end

