-- ==== Sys2Proof/Machine/Boot.lean ====
section
/-!
DEFINITION. The boot sequence (70_reset_and_hazards.md R172-R174) and the launch premise it establishes.
-/

namespace Sys2Proof.Machine

/-- The inversion bits of the two buses: the segment bus is active-low (`INVERT_SEG`), the digit-select bus is
inverted when `INVERT_DIG` says so (R30, R134, D13). -/
def invertBits (c : Config) : Word :=
  segMask c ||| (if c.invertDig then digitMask c else 0#32)

/-- R172 items 1 and 2: every pin of the two buses is a GPIO and an output, and `INV` is as R30 gives it.
Drive strength (item 3) has no logical effect (D34); the tick (item 4) may stand anywhere (U13, log 24). -/
def launchReady (s : State) : Bool :=
  decide (s.gpio &&& busMaskBoth s.cfg = busMaskBoth s.cfg ∧
    s.dir &&& busMaskBoth s.cfg = busMaskBoth s.cfg ∧
    s.inv &&& busMaskBoth s.cfg = invertBits s.cfg)

/-- The part of the pin configuration the launch premise reads (R172 items 1 and 2). -/
def configurePins (s : State) : State :=
  setInvert (busMaskBoth s.cfg) (invertBits s.cfg)
    (setDirectionOut (busMaskBoth s.cfg) (initGpio (busMaskBoth s.cfg) s))

/-- The pin configuration of R172 items 1-3, which comes first (R173); the timer is registered next. -/
def bootPins (s : State) : State :=
  (setDriveStrength (busMaskBoth s.cfg) (configurePins s)).withBoot .registerTimer

/-- `register_periodic(-TICK_DURATION_US, callback, CTX)` (R150, R174): on success the timer is armed, its
first delay begins and the main loop runs; on failure `RegistrationFailed` is raised. It happens once and is not retried. -/
def bootRegister (s : State) : State :=
  if s.cfg.regOk then (beginDelay (s.withTimer (some (-(s.cfg.tickDurationUs : Int))))).withBoot .mainLoop
  else raiseRegistrationFailed s

end Sys2Proof.Machine
end

