-- ==== Sys2Proof/Machine/Params.lean ====
section
/-!
DEFINITION. Which configurations are this hardware (00_scope.md R6, 10_state.md R27, 40_segment_encoder.md R82;
93_implementation_defined.md U12): the first parameter that fails its constraint, if one does.
-/

namespace Sys2Proof.Machine

/-- The constraints of R6, R27 and R82, in R6's order; the widths of R6 are the types' own. -/
def paramCheck (c : Config) : Option Param :=
  if c.digitsNum ≠ 8 then some .digitsNum
  else if c.roundPerCount < 1 then some .roundPerCount
  else if 2 ^ 32 < period c then some .period
  else if c.tickDurationUs < 1 then some .tickDurationUs
  else if c.segTable.length ≠ 10 then some .segTable
  else if ¬ (c.segTable.all fun v => decide (v < 2 ^ 8)) then some .segTable
  else if 32 < c.segBase + 8 then some .segBase
  else if 32 < c.digitBase + 8 then some .digitBase
  else if segMask c &&& digitMask c ≠ 0#32 then some .busOverlap
  else none

end Sys2Proof.Machine
end

