-- ==== Sys2Proof/Machine/Fetch.lean ====
section
/-!
DEFINITION. What the machine does next: the word it performs and where that word stands (30_encoding.md R68, R69;
42_tick_scheduler.md R110), the steps that are no instruction (boot), the stops of 60_exceptions.md R154 and R156,
what performing a word does to the place it stood in, and the placing of a word.
-/

namespace Sys2Proof.Machine

/-- The word performed next (R69: the kind is known from the place). A word presented on the bus command channel
comes first, then a raised strobe, then the phase `PH` names (DESIGN CHOICE, safe, log 2). -/
def fetch (s : State) : PlacedWord :=
  match s.busIn with
  | some w => .bus w
  | none => if s.strobe = 1#1 then .strobe s.strobe else .phase s.ph

/-- After a word is performed: a bus word leaves the channel and the strobe stays as it is; a performed strobe
falls, so that a phase runs before the next one and a posted firing is accepted in the end (R184, log 17); after a
phase the strobe is sampled anew. -/
def retire (w : PlacedWord) (t : State) : State :=
  match w with
  | .bus _ => t.withBusIn none
  | .strobe _ => t.withStrobe 0#1
  | .phase _ => sampleStrobe t

/-- What performing an instruction adds to its own outcome: a next state has the word `w` retired; a fault and a
refusal stay as they are. -/
def performed (w : PlacedWord) : Host.Outcome State Fault Refusal → Host.Outcome State Fault Refusal
  | .next t => .next (retire w t)
  | .fault r => .fault r
  | .refused r => .refused r

/-- What a step is about to do. -/
inductive Plan where
  /-- perform the instruction `i` that the word `w` decodes to -/
  | run (w : PlacedWord) (i : Instr)
  /-- a step that is no instruction of the table, with its next state -/
  | quiet (t : State)
  | fault (r : Fault)
  | refuse (r : Refusal)
  deriving DecidableEq, Repr

/-- With the main loop running: perform the fetched word; an ill-formed bus word is refused (R70). -/
def planFetched (s : State) : Plan :=
  match decode (fetch s) with
  | .instr i => .run (fetch s) i
  | .noRequest => .quiet s
  | .illFormed w => .refuse (.illFormedBusWord w)

/-- What the machine does next, wherever the main program stands: a configuration that is not this hardware is
refused (R156); after a failed registration there is no step (R154, log 10); boot configures the pins and then
registers the timer (R173); a launch without the premise of R172 is refused (U9, log 12). -/
def plan (s : State) : Plan :=
  match paramCheck s.cfg with
  | some p => .refuse (.configNotThisHardware p)
  | none =>
    if s.regFail = 1#1 then .fault .registrationFailed
    else
      match s.boot with
      | .configurePins => .quiet (bootPins s)
      | .registerTimer => if launchReady s then .quiet (bootRegister s) else .refuse .launchPrecondition
      | .mainLoop => if launchReady s then planFetched s else .refuse .launchPrecondition
      | .terminated => .fault .registrationFailed

/-- The launch premise as a start state has it: the pins configured (R172 items 1 and 2), the main loop running,
no failed registration. The timer and the drive strength stay as they are: the next step reads neither. -/
def launched (s : State) : State := ((configurePins s).withBoot .mainLoop).withRegFail 0#1

/-- `s` launched, with the word placed where the next step performs it: a phase code in `PH`, a bus word in the
channel, a strobe on the line; the places that would come first are empty. -/
def placeWord (p : PlacedWord) (s : State) : State :=
  match p with
  | .phase code => (((launched s).withPh code).withBusIn none).withStrobe 0#1
  | .bus w => (launched s).withBusIn (some w)
  | .strobe b => ((launched s).withBusIn none).withStrobe b

end Sys2Proof.Machine
end

