-- ==== Sys2Proof/Machine/Step.lean ====
section
/-!
DEFINITION. One step of the machine, and the placing of an opcode-table word where the next step performs it.
-/

namespace Sys2Proof.Machine

/-- One step: what the plan says (Fetch.lean). An instruction is performed by `exec`, and its word is then retired
from the place it stood in; a phase is one step and so is a bus command (R132, R183). -/
def step (s : State) : Host.Outcome State Fault Refusal :=
  match plan s with
  | .run w i => performed w (exec i s)
  | .quiet t => .next t
  | .fault r => .fault r
  | .refuse r => .refused r

/-- `s` launched with the opcode table's word placed where the next step performs it (log 13); a number that is no
word leaves `s` as it is. -/
def State.withFetchWord (s : State) (nbits w : Nat) : State :=
  match tableWord nbits w with
  | some p => placeWord p s
  | none => s

end Sys2Proof.Machine
end

