-- ==== Sys2Proof/Machine/Firing.lean ====
section
/-!
DEFINITION. One whole firing as a function (42_tick_scheduler.md R119), beside the eight phases it stands for.
-/

namespace Sys2Proof.Machine

/-- The result of R119's `Fire`: the next tick and the three bus states, in order. -/
structure FireResult where
  tick : Word
  out1 : Word
  out2 : Word
  out3 : Word
  deriving DecidableEq, Repr

/-- The pattern a firing puts on the segment bus: the encoded digit when visible, 0 when not (R182 `pat`). -/
def firePattern (c : Config) (r : Selection) : Word :=
  if r.visible then segLane c (BitVec.ofNat 8 (c.segTable.getD r.digitValue 0)) else 0#32

/-- `Fire(TICK, OUT)` of R119. -/
def fireWhole (c : Config) (tick out : Word) : FireResult :=
  let r := select c tick.toNat
  let out1 := out &&& ~~~digitMask c
  let out2 := (out1 &&& ~~~segMask c) ||| firePattern c r
  let out3 := (out2 &&& ~~~digitMask c) ||| (1#32 <<< (c.digitBase + r.position))
  { tick := BitVec.ofNat 32 ((tick.toNat + 1) % period c), out1 := out1, out2 := out2, out3 := out3 }

/-- The three command words of a firing, in order (R66, R120). -/
def fireWords (c : Config) (tick : Word) : List BusWord :=
  let r := select c tick.toNat
  [ busWord 0b00#2 (digitMask c) 0#32,
    (if r.visible then busWord 0b01#2 (segMask c) (firePattern c r) else busWord 0b00#2 (segMask c) 0#32),
    busWord 0b01#2 (digitMask c) (1#32 <<< (c.digitBase + r.position)) ]

end Sys2Proof.Machine
end

