-- ==== Sys2Proof/Machine/Pseudo.lean ====
section
/-!
DEFINITION. The four pseudo-instructions (30_encoding.md R72): names for the bus commands the sequencer issues,
each expanding to exactly one command of R66.
-/

namespace Sys2Proof.Machine

/-- `DESELECT`: `CLR DIGIT_MASK`, issued in phase c (R72). -/
def deselect (c : Config) : Instr := .clr (digitMask c)

/-- `SHOW d`: `PUT SEG_MASK, zext_32(SEG_TABLE[d]) << SEG_BASE`, issued in phase d when visible (R72); `d` is a
decimal digit, and `encode` refuses any other (R84). -/
def showDigit (c : Config) (d : Nat) : Except Refusal Instr :=
  match segEncode c d with
  | .ok pattern => .ok (.put (segMask c) (segLane c pattern))
  | .error r => .error r

/-- `BLANK`: `CLR SEG_MASK`, issued in phase d when not visible (R72). -/
def blank (c : Config) : Instr := .clr (segMask c)

/-- `SELECT p`: `PUT DIGIT_MASK, zext_32(1) << (DIGIT_BASE + p)`, issued in phase e (R72). -/
def selectDigit (c : Config) (p : BitVec 3) : Instr := .put (digitMask c) (digBit c p.toNat)

end Sys2Proof.Machine
end

