-- ==== Sys2Proof/Safety.lean ====
section
/-!
DEFINITION. What the claims are about: when a step performs an instruction, the invariants of the block, a firing
as the run of its eight phases, and ghost-freedom of the recorded bus states.
-/

namespace Sys2Proof.Machine

/-- The conditions under which a step performs the fetched word: this hardware's configuration (R6), no failed
registration (R31), the main loop running (R175) on configured pins (R172). -/
def Ready (s : State) : Prop :=
  paramCheck s.cfg = none ∧ s.regFail = 0#1 ∧ s.boot = .mainLoop ∧ launchReady s = true

/-- The latches hold what `select` gives for the tick `t` (R24, R113). -/
def LatchedFrom (s : State) (t : Nat) : Prop :=
  s.pos = BitVec.ofNat 3 (select s.cfg t).position ∧
  s.dval = BitVec.ofNat 4 (select s.cfg t).digitValue ∧
  s.vis = visFlag (select s.cfg t).visible

/-- The invariant of the block: this hardware's configuration; the tick in range (R21); from COMPUTE on, the
latched tick in range, and equal to the tick until ADVANCE (R24, R117); from CLRDIG on, the other latches are
`select` of it (R113). -/
def BlockInv (s : State) : Prop :=
  paramCheck s.cfg = none ∧
  s.tick.toNat < period s.cfg ∧
  (Ph.compute.toNat ≤ s.ph.toNat → s.tl.toNat < period s.cfg) ∧
  (Ph.compute.toNat ≤ s.ph.toNat → s.ph.toNat ≤ Ph.advance.toNat → s.tl = s.tick) ∧
  (Ph.clrdig.toNat ≤ s.ph.toNat → LatchedFrom s s.tl.toNat)

/-- The invariant of boot: a running main loop has its pins configured and its timer registered with the negated
period (R150, R172, R174); before that no firing is pending, no phase has run and nothing is recorded (R33, R170);
`REG_FAIL` stands exactly for the terminated process (R31, R154). -/
def BootInv (s : State) : Prop :=
  (s.boot = .mainLoop →
    launchReady s = true ∧ s.cfg.regOk = true ∧ s.timer = some (-(s.cfg.tickDurationUs : Int))) ∧
  (s.boot ≠ .mainLoop →
    s.timer = none ∧ s.tick = 0#32 ∧ s.ph = Ph.idle ∧ s.firePend = 0#1 ∧ s.strobe = 0#1 ∧ s.history = []) ∧
  (s.boot = .registerTimer → launchReady s = true) ∧
  (s.regFail = 1#1 ↔ s.boot = .terminated) ∧
  (s.boot = .terminated → s.cfg.regOk = false)

/-- The pattern the latches stand for: the encoded digit when `VIS = 1`, 0 when not (R182 `pat`). -/
def latchedPattern (s : State) : Word :=
  if s.vis = 1#1 then segLane s.cfg (BitVec.ofNat 8 (s.cfg.segTable.getD s.dval.toNat 0)) else 0#32

/-- A recorded bus state is ghost-free: no digit is selected, or the digit of some tick is selected alone, together
with that tick's own pattern (R182). -/
def GhostFreeOut (c : Config) (out : Word) : Prop :=
  out &&& digitMask c = 0#32 ∨
  ∃ t, t < period c ∧
    out &&& digitMask c = digBit c (select c t).position ∧
    out &&& segMask c = firePattern c (select c t)

/-- The bus invariant of a machine that nobody else presents bus words to (R28, R180, R181, R182): the block
invariant holds; no digit is selected between CLRDIG and SETDIG; from SEG to SETDIG the segment bus holds the
latched pattern; from SETDIG to the end of the firing it still does and the one digit is selected; and every
recorded state is ghost-free. -/
def GhostInv (s : State) : Prop :=
  BlockInv s ∧ s.busIn = none ∧
  (s.ph = Ph.seg ∨ s.ph = Ph.setdig → s.out &&& digitMask s.cfg = 0#32) ∧
  (s.ph = Ph.setdig → s.out &&& segMask s.cfg = latchedPattern s) ∧
  (s.ph = Ph.advance ∨ s.ph = Ph.ret →
    s.out &&& digitMask s.cfg = digBit s.cfg s.pos.toNat ∧ s.out &&& segMask s.cfg = latchedPattern s) ∧
  (∀ e ∈ s.history, GhostFreeOut s.cfg e.out)

/-- The channel holds no word that R70 refuses: none at all, or a `CLR` or a `PUT` that meets R65. -/
def NoWordToRefuse (s : State) : Prop :=
  ∀ w, s.busIn = some w →
    (∃ mask, w = busWord 0b00#2 mask 0#32) ∨
    (∃ mask value : Word, value &&& ~~~mask = 0#32 ∧ w = busWord 0b01#2 mask value)

/-- `n` steps in a row, while nobody presents a further bus word. -/
def steps : Nat → State → Host.Outcome State Fault Refusal
  | 0, s => .next s
  | n + 1, s =>
    match step s with
    | .next t => steps n t
    | .fault r => .fault r
    | .refused r => .refused r

/-- One phase of the sequencer: the instruction `PH` names (R22, R110). -/
def sequencerStep (s : State) : Host.Outcome State Fault Refusal := exec (decodePhase s.ph) s

/-- `n` phases in a row. -/
def runPhases : Nat → State → Host.Outcome State Fault Refusal
  | 0, s => .next s
  | n + 1, s =>
    match sequencerStep s with
    | .next t => runPhases n t
    | .fault r => .fault r
    | .refused r => .refused r

/-- One firing, `FIRE` in the program syntax of R71: the timer posts it, and the eight phases run
IDLE → a → … → g → IDLE. -/
def firing (s : State) : Host.Outcome State Fault Refusal :=
  match exec .fire s with
  | .next t => runPhases 8 t
  | .fault r => .fault r
  | .refused r => .refused r

/-- `FIRE × n` (R71). -/
def firings : Nat → State → Host.Outcome State Fault Refusal
  | 0, s => .next s
  | n + 1, s =>
    match firing s with
    | .next t => firings n t
    | .fault r => .fault r
    | .refused r => .refused r

end Sys2Proof.Machine
end

