-- ==== Sys2Proof/Certificates/Slice0/Obligations.lean ====
section
/-!
DEFINITION. The statements about the display-multiplexer block, one definition each. They hold for every
configuration that is this hardware, whatever the open parameters are, and for every value of the free values.
-/

open Sys2Proof Sys2Proof.Machine

/-! Encodings. -/

/-- R62, R63, R64, R68 on a few words written out from the spec: the eight phase codes of R62, words of
95_test_vectors.md 2.3, and the strobe. -/
def Obligations.SpecWordsDecode : Prop :=
  decode (.phase 0b000#3) = .instr .idle ∧ decode (.phase 0b001#3) = .instr .read ∧
  decode (.phase 0b010#3) = .instr .compute ∧ decode (.phase 0b011#3) = .instr .clrdig ∧
  decode (.phase 0b100#3) = .instr .seg ∧ decode (.phase 0b101#3) = .instr .setdig ∧
  decode (.phase 0b110#3) = .instr .advance ∧ decode (.phase 0b111#3) = .instr .ret ∧
  decode (.bus 0x0000FF0000000000#66) = .instr (.clr 0x0000FF00#32) ∧
  decode (.bus 0x1000000FF0000004F#66) = .instr (.put 0x000000FF#32 0x0000004F#32) ∧
  decode (.bus 0x0000FF0000000001#66) = .illFormed 0x0000FF0000000001#66 ∧
  decode (.bus 0x1000000FF00000100#66) = .illFormed 0x1000000FF00000100#66 ∧
  decode (.bus 0x20000FF0000000000#66) = .instr (.reserved2 0x0000FF00#32 0#32) ∧
  decode (.bus 0x30000FF0000000000#66) = .instr (.reserved3 0x0000FF00#32 0#32) ∧
  decode (.strobe 1#1) = .instr .fire ∧ decode (.strobe 0#1) = .noRequest

/-- Decoding the word of a well-formed instruction gives the instruction back, for every operand (R62-R65). -/
def Obligations.DecodeOfEncode : Prop :=
  ∀ i : Instr, i.wellFormed = true → decode (encode i) = .instr i

/-- The other direction: a word that decodes to an instruction is that instruction's word, and the instruction is
well-formed, so no two words decode alike and no bit of a word is dropped (R62-R65, R68). -/
def Obligations.EncodeOfDecode : Prop :=
  ∀ (p : PlacedWord) (i : Instr), decode p = .instr i → encode i = p ∧ i.wellFormed = true

/-- R65: a `CLR` word needs value 0, a `PUT` word needs `value & ~mask = 0`, and a word that fails is refused by
the decoder; the words the sequencer emits meet both. -/
def Obligations.BusWordWellFormedness : Prop :=
  (∀ mask value : Word,
    (value = 0#32 → decode (.bus (busWord 0b00#2 mask value)) = .instr (.clr mask)) ∧
    (value ≠ 0#32 →
      decode (.bus (busWord 0b00#2 mask value)) = .illFormed (busWord 0b00#2 mask value)) ∧
    (value &&& ~~~mask = 0#32 → decode (.bus (busWord 0b01#2 mask value)) = .instr (.put mask value)) ∧
    (value &&& ~~~mask ≠ 0#32 →
      decode (.bus (busWord 0b01#2 mask value)) = .illFormed (busWord 0b01#2 mask value))) ∧
  (∀ (i : Instr) (s t : State) (e : BusEvent), i.isPhase = true → paramCheck s.cfg = none →
    exec i s = .next t → t.history = s.history ++ [e] →
    (∃ mask, decode (.bus e.word) = .instr (.clr mask)) ∨
    (∃ mask value, decode (.bus e.word) = .instr (.put mask value)))

/-- R70 on a running machine: a word in the bus command channel with a reserved op, or an ill-formed `CLR` or
`PUT`, is refused with the word recorded (R156); the two reserved instructions, and a `PUT` term whose value leaves
its mask (log 21), are refused in every state; and no phase of the sequencer appends such a word. -/
def Obligations.ReservedAndIllFormedWordsAreRefused : Prop :=
  (∀ (mask value : Word) (s : State),
    exec (.reserved2 mask value) s = .refused (.reservedBusOp (busWord 0b10#2 mask value)) ∧
    exec (.reserved3 mask value) s = .refused (.reservedBusOp (busWord 0b11#2 mask value)) ∧
    (value &&& ~~~mask ≠ 0#32 →
      exec (.put mask value) s = .refused (.illFormedBusWord (busWord 0b01#2 mask value)))) ∧
  (∀ (s : State) (w : BusWord), Ready s → s.busIn = some w →
    (busOp w = 0b10#2 ∨ busOp w = 0b11#2 → step s = .refused (.reservedBusOp w)) ∧
    (busOp w = 0b00#2 → busValue w ≠ 0#32 → step s = .refused (.illFormedBusWord w)) ∧
    (busOp w = 0b01#2 → busValue w &&& ~~~busMask w ≠ 0#32 → step s = .refused (.illFormedBusWord w))) ∧
  (∀ (i : Instr) (s t : State) (e : BusEvent), i.isPhase = true → paramCheck s.cfg = none →
    exec i s = .next t → t.history = s.history ++ [e] →
    (busOp e.word = 0b00#2 ∧ busValue e.word = 0#32) ∨
    (busOp e.word = 0b01#2 ∧ busValue e.word &&& ~~~busMask e.word = 0#32))

/-- A step of a ready state performs the instruction the fetched word decodes to, by `exec`, and retires the word
from the place it stood in: a bus word leaves the channel; a performed strobe falls; after a phase an unregistered
timer leaves the strobe at 0, and an armed one raises it when its delay has passed and a free delay begins anew. The fetched word is the channel's, else a raised
strobe, else the phase `PH` names (the model's choice of order, log 2). -/
def Obligations.StepRunsTheDecodedInstruction : Prop :=
  (∀ (s : State) (i : Instr), Ready s → decode (fetch s) = .instr i →
    step s = match exec i s with
      | .next t => .next (retire (fetch s) t)
      | .fault r => .fault r
      | .refused r => .refused r) ∧
  (∀ s : State,
    (∀ w, s.busIn = some w → fetch s = .bus w) ∧
    (s.busIn = none → s.strobe = 1#1 → fetch s = .strobe 1#1) ∧
    (s.busIn = none → s.strobe = 0#1 → fetch s = .phase s.ph)) ∧
  (∀ t : State,
    (∀ w, retire (.bus w) t = { t with busIn := none }) ∧
    (t.timer = none → ∀ p, retire (.phase p) t = { t with strobe := 0#1 }) ∧
    (∀ b, retire (.strobe b) t = { t with strobe := 0#1 }) ∧
    (∀ r, t.timer = some r → t.due = 0 → ∀ p,
      retire (.phase p) t =
        { t with strobe := 1#1, due := Config.freeDelay t.draws, draws := t.draws + 1 }) ∧
    (∀ r n, t.timer = some r → t.due = n + 1 → ∀ p, retire (.phase p) t = { t with strobe := 0#1, due := n }))

/-- A word placed in a machine of this hardware is performed by the very next step (log 13). -/
def Obligations.PlacedWordRunsNext : Prop :=
  ∀ (s : State) (i : Instr), paramCheck s.cfg = none → i.wellFormed = true →
    step (placeWord (encode i) s) = performed (encode i) (exec i (placeWord (encode i) s))

/-! The phases. Each equation gives the whole next state: everything not named is unchanged. -/

/-- R111. The unchanged state of a wait, its latches included, is the model's choice (logs 16, 29). -/
def Obligations.IdleAcceptsAPendingFiring : Prop :=
  ∀ s : State,
    (s.regFail = 0#1 → s.firePend = 1#1 →
      exec .idle s = .next { s with firePend := 0#1, ph := 0b001#3 }) ∧
    (¬ (s.regFail = 0#1 ∧ s.firePend = 1#1) → exec .idle s = .next s)

/-- R112. -/
def Obligations.ReadLatchesTheTick : Prop :=
  ∀ s : State, exec .read s = .next { s with tl := s.tick, ph := 0b010#3 }

/-- R113: the three latches are written with `select(T_L)`, and each holds its value exactly (R98). -/
def Obligations.ComputeLatchesTheSelection : Prop :=
  ∀ s : State, paramCheck s.cfg = none →
    ∃ (p : BitVec 3) (d : BitVec 4) (v : BitVec 1),
      exec .compute s = .next { s with pos := p, dval := d, vis := v, ph := 0b011#3 } ∧
      p.toNat = (select s.cfg s.tl.toNat).position ∧
      d.toNat = (select s.cfg s.tl.toNat).digitValue ∧
      (v = 1#1 ↔ (select s.cfg s.tl.toNat).visible = true)

/-- R114: the command `CLR DIGIT_MASK` is issued, the next phase is SEG, and no digit is selected afterwards. -/
def Obligations.ClrdigClearsTheDigitBus : Prop :=
  ∀ s : State, ∃ t : State, exec .clrdig s = .next t ∧
    exec (.clr (digitMask s.cfg)) s = .next { t with ph := s.ph } ∧
    t = { s with out := s.out &&& ~~~digitMask s.cfg, history := t.history, ph := 0b100#3 } ∧
    busHistory t = busHistory s ++ [t.out] ∧
    t.out &&& digitMask s.cfg = 0#32

/-- R115: the whole pattern of the digit replaces the segment bus when `VIS = 1`; the segment bus is cleared when
`VIS = 0`. -/
def Obligations.SegWritesOrBlanksTheSegmentBus : Prop :=
  (∀ s : State, paramCheck s.cfg = none → s.vis = 1#1 → s.dval.toNat < 10 →
    ∃ (v : Nat) (t : State), s.cfg.segTable[s.dval.toNat]? = some v ∧ v < 2 ^ 8 ∧ exec .seg s = .next t ∧
      t = { s with
        out := (s.out &&& ~~~segMask s.cfg) ||| (BitVec.ofNat 32 v <<< s.cfg.segBase)
        history := t.history
        ph := 0b101#3 } ∧
      busHistory t = busHistory s ++ [t.out] ∧
      t.out &&& segMask s.cfg = BitVec.ofNat 32 v <<< s.cfg.segBase ∧
      exec (.put (segMask s.cfg) (BitVec.ofNat 32 v <<< s.cfg.segBase)) s = .next { t with ph := s.ph }) ∧
  (∀ s : State, s.vis = 0#1 → ∃ t : State, exec .seg s = .next t ∧
    exec (.clr (segMask s.cfg)) s = .next { t with ph := s.ph } ∧
    t = { s with out := s.out &&& ~~~segMask s.cfg, history := t.history, ph := 0b101#3 } ∧
    busHistory t = busHistory s ++ [t.out] ∧
    t.out &&& segMask s.cfg = 0#32)

/-- R116: the whole digit bus is written with the one bit of the position, which is then the only one set. -/
def Obligations.SetdigSelectsExactlyOneDigit : Prop :=
  ∀ s : State, paramCheck s.cfg = none → ∃ t : State, exec .setdig s = .next t ∧
    t = { s with
      out := (s.out &&& ~~~digitMask s.cfg) ||| (1#32 <<< (s.cfg.digitBase + s.pos.toNat))
      history := t.history
      ph := 0b110#3 } ∧
    busHistory t = busHistory s ++ [t.out] ∧
    t.out &&& digitMask s.cfg = 1#32 <<< (s.cfg.digitBase + s.pos.toNat) ∧
    exec (.put (digitMask s.cfg) (1#32 <<< (s.cfg.digitBase + s.pos.toNat))) s = .next { t with ph := s.ph }

/-- R117: the tick is the tick plus one modulo the period, over the naturals, with the wrap to 0. The operand is
`TICK`, and no latch is read (R24); where `T_L` equals it, as in every state of a run, R117's pseudocode in `T_L`
gives the same (log 27). -/
def Obligations.AdvanceMovesTheTick : Prop :=
  ∀ s : State, paramCheck s.cfg = none → ∃ v : Word,
    exec .advance s = .next { s with tick := v, ph := 0b111#3 } ∧
    v.toNat = (s.tick.toNat + 1) % (s.cfg.digitsNum * s.cfg.roundPerCount * 10000) ∧
    (s.tick.toNat + 1 = s.cfg.digitsNum * s.cfg.roundPerCount * 10000 → v = 0#32) ∧
    (s.tl = s.tick → v.toNat = (s.tl.toNat + 1) % (s.cfg.digitsNum * s.cfg.roundPerCount * 10000))

/-- R118, with everything else unchanged. That the latches, unspecified in IDLE (R24, U8), are unchanged too is the
model's choice (log 29). -/
def Obligations.ReturnEndsTheFiring : Prop :=
  ∀ s : State, exec .ret s = .next { s with ph := 0b000#3 }

/-! The bus commands and the strobe. -/

/-- R130: `OUT` loses the masked bits, in one recorded update. -/
def Obligations.ClrClearsTheMaskedPins : Prop :=
  ∀ (mask : Word) (s : State), ∃ t : State, exec (.clr mask) s = .next t ∧
    t = { s with out := s.out &&& ~~~mask, history := t.history } ∧
    busHistory t = busHistory s ++ [t.out] ∧
    (∀ n < 32, t.out.getLsbD n = if mask.getLsbD n then false else s.out.getLsbD n) ∧
    (mask = 0#32 → t.out = s.out)

/-- R131: lane by lane, the masked pins take the given levels and the others keep theirs, in one recorded update.
The operands of a `PUT` have `value & ~mask = 0`; the term that has not is in
`ReservedAndIllFormedWordsAreRefused`. -/
def Obligations.PutWritesTheMaskedPins : Prop :=
  ∀ (mask value : Word) (s : State), value &&& ~~~mask = 0#32 →
    ∃ t : State, exec (.put mask value) s = .next t ∧
      t = { s with out := (s.out &&& ~~~mask) ||| (value &&& mask), history := t.history } ∧
      busHistory t = busHistory s ++ [t.out] ∧
      (∀ n < 32, t.out.getLsbD n = if mask.getLsbD n then value.getLsbD n else s.out.getLsbD n) ∧
      (value = 0#32 → t.out = s.out &&& ~~~mask)

/-- R133 with the event words of V3 (log 14): each bus command appends exactly one event, its own word and `OUT`
after it. The words are those of R63 and R64, and R66's for the phases. -/
def Obligations.CommandsRecordTheirWords : Prop :=
  ∀ s t : State,
    (∀ mask, exec (.clr mask) s = .next t → t.history = s.history ++ [⟨busWord 0b00#2 mask 0#32, t.out⟩]) ∧
    (∀ mask value, exec (.put mask value) s = .next t →
      t.history = s.history ++ [⟨busWord 0b01#2 mask value, t.out⟩]) ∧
    (exec .clrdig s = .next t →
      t.history = s.history ++ [⟨busWord 0b00#2 (digitMask s.cfg) 0#32, t.out⟩]) ∧
    (s.vis = 0#1 → exec .seg s = .next t →
      t.history = s.history ++ [⟨busWord 0b00#2 (segMask s.cfg) 0#32, t.out⟩]) ∧
    (s.vis = 1#1 → exec .seg s = .next t → ∃ pattern, segEncode s.cfg s.dval.toNat = .ok pattern ∧
      t.history = s.history ++ [⟨busWord 0b01#2 (segMask s.cfg) (pattern.zeroExtend 32 <<< s.cfg.segBase), t.out⟩]) ∧
    (exec .setdig s = .next t → t.history = s.history ++
      [⟨busWord 0b01#2 (digitMask s.cfg) (1#32 <<< (s.cfg.digitBase + s.pos.toNat)), t.out⟩])

/-- R45: a bus command issued twice leaves `OUT` as issued once. -/
def Obligations.BusCommandsAreIdempotent : Prop :=
  ∀ s : State,
    (∀ mask, ∃ t u, exec (.clr mask) s = .next t ∧ exec (.clr mask) t = .next u ∧ u.out = t.out) ∧
    (∀ mask value, value &&& ~~~mask = 0#32 →
      ∃ t u, exec (.put mask value) s = .next t ∧ exec (.put mask value) t = .next u ∧ u.out = t.out)

/-- R151: the strobe sets `FIRE_PEND` and nothing else, and a second posting has no effect. -/
def Obligations.FirePostsAPendingFiring : Prop :=
  ∀ s : State, exec .fire s = .next { s with firePend := 1#1 } ∧
    (s.firePend = 1#1 → exec .fire s = .next s)

/-- R152 on a running machine: a strobe during a firing leaves the phase where it is and the firing pending; and a
pending firing is taken only from IDLE, into READ. -/
def Obligations.FiringsDoNotOverlap : Prop :=
  (∀ s : State, Ready s → s.busIn = none → s.strobe = 1#1 →
    ∃ t, step s = .next t ∧ t.firePend = 1#1 ∧ t.ph = s.ph ∧ t.out = s.out ∧ t.tick = s.tick) ∧
  (∀ s t : State, step s = .next t → s.firePend = 1#1 → t.firePend = 0#1 →
    s.ph = Ph.idle ∧ t.ph = Ph.read ∧ t.tick = s.tick)

/-- R72 (R66, R114, R115, R116): each bus phase is its pseudo-operation followed by the step to the next phase:
DESELECT in c, `SHOW DVAL` in d when `VIS = 1` and BLANK when `VIS = 0`, `SELECT POS` in e. -/
def Obligations.BusPhasesIssueTheirPseudoOperations : Prop :=
  ∀ s : State, paramCheck s.cfg = none →
    (∃ t, exec (deselect s.cfg) s = .next t ∧ exec .clrdig s = .next { t with ph := 0b100#3 }) ∧
    (s.vis = 1#1 → s.dval.toNat < 10 → ∃ i t, showDigit s.cfg s.dval.toNat = .ok i ∧ exec i s = .next t ∧
      exec .seg s = .next { t with ph := 0b101#3 }) ∧
    (s.vis = 0#1 → ∃ t, exec (blank s.cfg) s = .next t ∧ exec .seg s = .next { t with ph := 0b101#3 }) ∧
    (∃ t, exec (selectDigit s.cfg s.pos) s = .next t ∧ exec .setdig s = .next { t with ph := 0b110#3 })

/-! The Segment Encoder and the Digit Multiplexer. -/

/-- R80, R84, R85: `encode(d)` is the table's entry, untransformed, for a decimal digit, and is refused from 10, in
phase SEG too (the model's reading, log 28). -/
def Obligations.EncodeIsTheTable : Prop :=
  ∀ c : Config, paramCheck c = none → ∀ d : Nat,
    (d < 10 → ∃ v : Nat, c.segTable[d]? = some v ∧
      ∃ pattern : BitVec 8, segEncode c d = .ok pattern ∧ pattern.toNat = v) ∧
    (10 ≤ d → segEncode c d = .error (.encodeArgument d) ∧
      ∀ s : State, s.vis = 1#1 → s.dval.toNat = d → exec .seg s = .refused (.encodeArgument d))

/-- R90 with the values of R91 to R96: the three outputs of `select`, the divisors written out. -/
def Obligations.SelectFollowsTheRules : Prop :=
  ∀ c : Config, paramCheck c = none → ∀ t : Nat,
    (select c t).position = t % 8 ∧
    (t % 8 % 4 = 0 → (select c t).digitValue = t / c.roundPerCount / 8 / 1 % 10) ∧
    (t % 8 % 4 = 1 → (select c t).digitValue = t / c.roundPerCount / 8 / 10 % 10) ∧
    (t % 8 % 4 = 2 → (select c t).digitValue = t / c.roundPerCount / 8 / 100 % 10) ∧
    (t % 8 % 4 = 3 → (select c t).digitValue = t / c.roundPerCount / 8 / 1000 % 10) ∧
    ((select c t).visible = true ↔ t / c.roundPerCount / 8 % 2 = t % 8 / 4)

/-- R91, R94, R96 in bits: the position is the tick's low three bits, the place its low two, and the gate compares
the count's bit 0 with the position's bit 2. -/
def Obligations.SelectInBits : Prop :=
  ∀ c : Config, paramCheck c = none → ∀ t : Word,
    (select c t.toNat).position = (t.extractLsb' 0 3).toNat ∧
    place (select c t.toNat).position = (t.extractLsb' 0 2).toNat ∧
    ((select c t.toNat).visible = true ↔
      (count c t.toNat).testBit 0 = (select c t.toNat).position.testBit 2)

/-- R93: one division by `8 * ROUND_PER_COUNT` gives the count. -/
def Obligations.CountIsOneDivision : Prop :=
  ∀ c : Config, paramCheck c = none → ∀ t : Nat, count c t = t / (8 * c.roundPerCount)

/-- R98: the ranges of the outputs for every natural, the count's for a tick in range, and so the widths of the
latches suffice. -/
def Obligations.SelectRanges : Prop :=
  ∀ c : Config, paramCheck c = none → ∀ t : Nat,
    (select c t).position ≤ 7 ∧ place (select c t).position ≤ 3 ∧ (select c t).digitValue ≤ 9 ∧
    (t < period c → count c t ≤ 9999) ∧ count c (period c) = 10000 ∧
    (BitVec.ofNat 3 (select c t).position).toNat = (select c t).position ∧
    (BitVec.ofNat 4 (select c t).digitValue).toNat = (select c t).digitValue

/-- R99 (and C3): with `R = ROUND_PER_COUNT`, the count is `k` on the aligned block from `8Rk` and grows by one
between blocks; a window of `8R` ticks that is not aligned sees two counts. -/
def Obligations.CountDwellsOnAlignedBlocks : Prop :=
  ∀ c : Config, paramCheck c = none →
    (∀ k j : Nat, j < 8 * c.roundPerCount → count c (k * (8 * c.roundPerCount) + j) = k) ∧
    (∀ a : Nat, a % (8 * c.roundPerCount) ≠ 0 →
      count c (a + 8 * c.roundPerCount - 1) = count c a + 1)

/-- R97, R100: positions four apart share the decimal place and so the digit value; for a fixed count the first
group is visible iff the count is even and the second iff it is odd; exactly one group is visible. -/
def Obligations.VisibilityGroups : Prop :=
  (∀ cnt p : Nat, p < 4 → digitValue cnt p = digitValue cnt (p + 4)) ∧
  (∀ cnt p : Nat, p < 4 → (visible cnt p = true ↔ cnt % 2 = 0)) ∧
  (∀ cnt p : Nat, 4 ≤ p → p < 8 → (visible cnt p = true ↔ cnt % 2 = 1)) ∧
  (∀ cnt p q : Nat, p < 4 → 4 ≤ q → q < 8 → visible cnt p = !visible cnt q)

/-- R101: every tick's position is in range, and over one period every position occurs exactly `PERIOD / 8`
times. -/
def Obligations.EveryPositionIsVisitedEquallyOften : Prop :=
  ∀ c : Config, paramCheck c = none →
    (∀ t : Nat, t < period c → (select c t).position = t % c.digitsNum ∧ (select c t).position < c.digitsNum) ∧
    (∀ p : Nat, p < c.digitsNum →
      ((List.range (period c)).countP fun t => (select c t).position == p) = period c / c.digitsNum)

/-! The machine. -/

/-- R33 with R170, R158: what the spec states of the state at reset, for every build; and the reset state is that
of the reference configuration (the model's choice, log 3). -/
def Obligations.ResetState : Prop :=
  (∀ c : Config, (State.resetWith c).tick = 0#32 ∧ (State.resetWith c).ph = 0b000#3 ∧
    (State.resetWith c).regFail = 0#1 ∧ (State.resetWith c).firePend = 0#1 ∧
    (State.resetWith c).timer = none ∧ (State.resetWith c).cfg = c ∧
    (State.resetWith c).boot = .configurePins ∧ context (State.resetWith c) = .thread) ∧
  core.reset = State.resetWith Config.reference

/-- R172, R173, R174, R150: from process start the pins are configured first, and the timer is then registered
with the negated tick duration; neither step touches the tick, the phase, `OUT` or the bus history. -/
def Obligations.BootConfiguresPinsThenRegisters : Prop :=
  ∀ s : State, paramCheck s.cfg = none → s.regFail = 0#1 → s.boot = .configurePins → s.cfg.regOk = true →
    ∃ a b, step s = .next a ∧ step a = .next b ∧
      a.boot = .registerTimer ∧ a.timer = s.timer ∧ launchReady a = true ∧
      b.boot = .mainLoop ∧ b.timer = some (-(s.cfg.tickDurationUs : Int)) ∧ launchReady b = true ∧
      b.regFail = 0#1 ∧ b.cfg = s.cfg ∧ b.tick = s.tick ∧ b.ph = s.ph ∧ b.firePend = s.firePend ∧
      b.out = s.out ∧ b.history = s.history

/-- R154, R174, R155: a failed registration sets `REG_FAIL` and terminates the process; with `REG_FAIL = 1` there
is no further step, only the fault; and no instruction ever faults. -/
def Obligations.RegistrationFailureIsFatal : Prop :=
  (∀ s : State, paramCheck s.cfg = none → s.regFail = 0#1 → s.boot = .registerTimer → launchReady s = true →
    s.cfg.regOk = false →
    step s = .next { s with regFail := 1#1, boot := .terminated } ∧
    step { s with regFail := 1#1, boot := .terminated } = .fault .registrationFailed) ∧
  (∀ s : State, paramCheck s.cfg = none → s.regFail = 1#1 → step s = .fault .registrationFailed) ∧
  (∀ (i : Instr) (s : State) (r : Fault), exec i s ≠ .fault r)

/-- R6, R27, R82, R156: a step of a configuration that fails a constraint is refused under a parameter's name; the
constraints are exactly those of the rules. -/
def Obligations.OnlyThisHardwareRuns : Prop :=
  ∀ s : State,
    (s.cfg.digitsNum = 8 ∧ 1 ≤ s.cfg.roundPerCount ∧ 8 * s.cfg.roundPerCount * 10000 ≤ 2 ^ 32 ∧
      1 ≤ s.cfg.tickDurationUs ∧ s.cfg.segTable.length = 10 ∧ (∀ v ∈ s.cfg.segTable, v < 2 ^ 8) ∧
      s.cfg.segBase + 8 ≤ 32 ∧ s.cfg.digitBase + 8 ≤ 32 ∧
      (s.cfg.segBase + 8 ≤ s.cfg.digitBase ∨ s.cfg.digitBase + 8 ≤ s.cfg.segBase)) ∧
      paramCheck s.cfg = none ∨
    ¬ (s.cfg.digitsNum = 8 ∧ 1 ≤ s.cfg.roundPerCount ∧ 8 * s.cfg.roundPerCount * 10000 ≤ 2 ^ 32 ∧
      1 ≤ s.cfg.tickDurationUs ∧ s.cfg.segTable.length = 10 ∧ (∀ v ∈ s.cfg.segTable, v < 2 ^ 8) ∧
      s.cfg.segBase + 8 ≤ 32 ∧ s.cfg.digitBase + 8 ≤ 32 ∧
      (s.cfg.segBase + 8 ≤ s.cfg.digitBase ∨ s.cfg.digitBase + 8 ≤ s.cfg.segBase)) ∧
      ∃ p, step s = .refused (.configNotThisHardware p)

/-- U9, D33: a machine past the pin configuration whose pins are not configured is refused (log 12). -/
def Obligations.LaunchWithoutPinsIsRefused : Prop :=
  ∀ s : State, paramCheck s.cfg = none → s.regFail = 0#1 → (s.boot = .registerTimer ∨ s.boot = .mainLoop) →
    launchReady s = false → step s = .refused .launchPrecondition

/-- R158, R159, R160, R23: reset, boot and IDLE are thread context; accepting a firing enters interrupt context at
READ with the tick unchanged; every phase from READ to ADVANCE stays in it; RETURN leaves it. -/
def Obligations.InterruptEntryAndReturn : Prop :=
  (∀ s : State, context s = .thread ↔ s.ph = 0b000#3) ∧
  (∀ s : State, s.regFail = 0#1 → s.firePend = 1#1 → s.ph = 0b000#3 →
    ∃ t, exec (decodePhase s.ph) s = .next t ∧ context s = .thread ∧ context t = .interrupt ∧
      t.ph = 0b001#3 ∧ t.tick = s.tick ∧ t.timer = s.timer) ∧
  (∀ s t : State, s.ph ≠ 0b000#3 → s.ph ≠ 0b111#3 → exec (decodePhase s.ph) s = .next t →
    context t = .interrupt) ∧
  (∀ s : State, ∃ t, exec .ret s = .next t ∧ context t = .thread ∧ t.timer = s.timer ∧ t.tick = s.tick)

/-- R134 (R30, R83): on configured pins the segment pads carry the inverted segment bits of `OUT`, and the
digit-select pads are inverted exactly when `INVERT_DIG` says so. -/
def Obligations.PadsAreInvertedOnce : Prop :=
  ∀ s : State, paramCheck s.cfg = none → launchReady s = true →
    pads s &&& segMask s.cfg = ~~~s.out &&& segMask s.cfg ∧
    (s.cfg.invertDig = true → pads s &&& digitMask s.cfg = ~~~s.out &&& digitMask s.cfg) ∧
    (s.cfg.invertDig = false → pads s &&& digitMask s.cfg = s.out &&& digitMask s.cfg)

/-! Rules of the whole machine. -/

/-- R30, R31, R160, R168: no step writes the parameters; a ready machine stays ready, with its pins, inversion,
drive strength, registration and `REG_FAIL` as they are, so nothing stops the firings. -/
def Obligations.RunningConfigurationIsReadOnly : Prop :=
  ∀ s t : State, step s = .next t →
    t.cfg = s.cfg ∧
    (s.boot = .mainLoop → Ready t ∧ t.gpio = s.gpio ∧ t.dir = s.dir ∧ t.inv = s.inv ∧ t.drive = s.drive ∧
      t.timer = s.timer)

/-- R20, R24, R25, R26: each register has its one writer. The tick is written in ADVANCE, `T_L` in READ, the other
latches in COMPUTE, `OUT` by the three bus phases or a word of the channel. -/
def Obligations.EachRegisterHasItsWriter : Prop :=
  ∀ s t : State, step s = .next t →
    (t.tick ≠ s.tick → fetch s = .phase Ph.advance) ∧
    (t.tl ≠ s.tl → fetch s = .phase Ph.read) ∧
    (t.pos ≠ s.pos ∨ t.dval ≠ s.dval ∨ t.vis ≠ s.vis → fetch s = .phase Ph.compute) ∧
    (t.out ≠ s.out → fetch s = .phase Ph.clrdig ∨ fetch s = .phase Ph.seg ∨ fetch s = .phase Ph.setdig ∨
      ∃ w, fetch s = .bus w)

/-- R23: `PH` only goes from each phase to the next and from RETURN to IDLE, one step each; IDLE is left only by
accepting a pending firing, and no other phase is stayed in when it is performed. -/
def Obligations.PhasesFollowTheirOrder : Prop :=
  ∀ s t : State, step s = .next t →
    (t.ph = s.ph ∨ (fetch s = .phase s.ph ∧ s.boot = .mainLoop ∧ t.ph = s.ph + 1#3)) ∧
    (s.ph = Ph.idle → t.ph ≠ Ph.idle → s.firePend = 1#1 ∧ t.firePend = 0#1) ∧
    (s.boot = .mainLoop → fetch s = .phase s.ph → s.ph ≠ Ph.idle → t.ph = s.ph + 1#3)

/-- R133, R120: every bus command appends one event with `OUT` after it; nothing else appends one or changes
`OUT`. -/
def Obligations.HistoryRecordsEveryCommand : Prop :=
  ∀ (i : Instr) (s t : State), exec i s = .next t →
    ((i = .clrdig ∨ i = .seg ∨ i = .setdig ∨ (∃ mask, i = .clr mask) ∨ (∃ mask value, i = .put mask value)) ∧
      ∃ e : BusEvent, t.history = s.history ++ [e] ∧ e.out = t.out) ∨
    (¬ (i = .clrdig ∨ i = .seg ∨ i = .setdig ∨ (∃ mask, i = .clr mask) ∨ (∃ mask value, i = .put mask value)) ∧
      t.history = s.history ∧ t.out = s.out)

/-- R136: every command a phase issues has the mask `SEG_MASK` or `DIGIT_MASK`, and no phase changes a pin outside
the two buses. -/
def Obligations.BlockChangesOnlyItsPins : Prop :=
  ∀ (i : Instr) (s t : State), i.isPhase = true → paramCheck s.cfg = none → exec i s = .next t →
    t.out &&& ~~~(segMask s.cfg ||| digitMask s.cfg) = s.out &&& ~~~(segMask s.cfg ||| digitMask s.cfg) ∧
    (∀ e : BusEvent, t.history = s.history ++ [e] →
      busMask e.word = segMask s.cfg ∨ busMask e.word = digitMask s.cfg)

/-! A firing, and the invariants. -/

/-- R119: the eight phases of a firing are R119's `Fire`: the tick, `OUT` and the three recorded bus states are
its own, the sequencer is back in IDLE, and the parameters, pins,
registration, channel, strobe, delay and counter are as before. -/
def Obligations.FiringRefinesFire : Prop :=
  ∀ s : State, paramCheck s.cfg = none → s.regFail = 0#1 → s.ph = Ph.idle →
    ∃ t, firing s = .next t ∧
      t.tick = (fireWhole s.cfg s.tick s.out).tick ∧
      t.out = (fireWhole s.cfg s.tick s.out).out3 ∧
      busHistory t = busHistory s ++ [(fireWhole s.cfg s.tick s.out).out1,
        (fireWhole s.cfg s.tick s.out).out2, (fireWhole s.cfg s.tick s.out).out3] ∧
      t.ph = Ph.idle ∧ t.firePend = 0#1 ∧ t.regFail = s.regFail ∧ t.cfg = s.cfg ∧ t.dir = s.dir ∧
      t.inv = s.inv ∧ t.gpio = s.gpio ∧ t.drive = s.drive ∧ t.timer = s.timer ∧ t.boot = s.boot ∧
      t.busIn = s.busIn ∧ t.strobe = s.strobe ∧ t.due = s.due ∧ t.draws = s.draws

/-- R120 (R66; the event words of log 14): a firing issues exactly three bus commands, in the order c, d, e: a
`CLR` of the digit-select bus, a `PUT` of the pattern or a `CLR` of the segment bus, a `PUT` of the digit-select
bus. -/
def Obligations.FiringIssuesExactlyThreeCommands : Prop :=
  ∀ s : State, paramCheck s.cfg = none → s.regFail = 0#1 → s.ph = Ph.idle →
    ∃ t, firing s = .next t ∧
      t.history.map (·.word) = s.history.map (·.word) ++ fireWords s.cfg s.tick ∧
      (fireWords s.cfg s.tick).length = 3

/-- R182: each firing, from any bus state, records three states: no digit is selected in the first two, the second
and third carry the firing's own pattern, and the third selects the firing's digit alone. -/
def Obligations.EachFiringIsGhostFree : Prop :=
  ∀ s : State, paramCheck s.cfg = none → s.regFail = 0#1 → s.ph = Ph.idle →
    ∃ (t : State) (o1 o2 o3 : Word), firing s = .next t ∧
      busHistory t = busHistory s ++ [o1, o2, o3] ∧
      o1 &&& digitMask s.cfg = 0#32 ∧ o2 &&& digitMask s.cfg = 0#32 ∧
      o2 &&& segMask s.cfg = firePattern s.cfg (select s.cfg s.tick.toNat) ∧
      o3 &&& segMask s.cfg = firePattern s.cfg (select s.cfg s.tick.toNat) ∧
      o3 &&& digitMask s.cfg = digBit s.cfg (select s.cfg s.tick.toNat).position

/-- R163 (R117, R71): `FIRE × n` completes, and the tick has advanced by `n` modulo the period. -/
def Obligations.TickCountsFirings : Prop :=
  ∀ (n : Nat) (s : State), paramCheck s.cfg = none → s.regFail = 0#1 → s.ph = Ph.idle →
    s.tick.toNat < period s.cfg →
    ∃ t, firings n s = .next t ∧ t.tick.toNat = (s.tick.toNat + n) % period s.cfg ∧ t.ph = Ph.idle

/-- R123: after the firing at `TICK = PERIOD - 1` the tick is 0, `select(0) = (0, 0, true)`, and the next firing
latches exactly that: read in CLRDIG, after its phases IDLE, READ and COMPUTE, since the latches' values in IDLE are
unspecified (R24, U8). The next firing completes. -/
def Obligations.WrapIsConsistent : Prop :=
  ∀ s : State, paramCheck s.cfg = none → s.regFail = 0#1 → s.ph = Ph.idle →
    s.tick.toNat = period s.cfg - 1 →
    ∃ t p v u, firing s = .next t ∧ t.tick = 0#32 ∧ select s.cfg 0 = ⟨0, 0, true⟩ ∧
      exec .fire t = .next p ∧ runPhases 3 p = .next v ∧
      v.ph = Ph.clrdig ∧ v.tl = 0#32 ∧ v.pos = 0#3 ∧ v.dval = 0#4 ∧ v.vis = 1#1 ∧
      firing t = .next u

/-- R21, R24, R113, R117: every step keeps the block's invariant (Safety.lean `BlockInv`). -/
def Obligations.StepKeepsBlockInv : Prop :=
  ∀ s t : State, BlockInv s → step s = .next t → BlockInv t

/-- The block's invariant holds at reset, of every build that is this hardware, and of the reference one. -/
def Obligations.ResetMeetsBlockInv : Prop :=
  (∀ c : Config, paramCheck c = none → BlockInv (State.resetWith c)) ∧ BlockInv State.reset

/-- R31, R150, R154, R172, R174: every step keeps the invariant of boot (Safety.lean `BootInv`). -/
def Obligations.StepKeepsBootInv : Prop :=
  ∀ s t : State, BootInv s → step s = .next t → BootInv t

/-- The invariant of boot holds at reset, of every build. -/
def Obligations.ResetMeetsBootInv : Prop :=
  (∀ c : Config, BootInv (State.resetWith c)) ∧ BootInv State.reset

/-- R28, R180, R181, R182: while nobody else presents a bus word, every step keeps the bus invariant (Safety.lean
`GhostInv`): the digit is deselected before the segment bus changes, and every recorded state that selects a digit
carries that digit's own pattern. -/
def Obligations.StepKeepsGhostInv : Prop :=
  ∀ s t : State, GhostInv s → step s = .next t → GhostInv t

/-- The bus invariant holds at reset, of every build that is this hardware, whatever the boot value of `OUT`. -/
def Obligations.ResetMeetsGhostInv : Prop :=
  ∀ (c : Config) (boot : Word), paramCheck c = none → GhostInv { State.resetWith c with out := boot }

/-- R155, R132, R183: a ready machine whose invariant holds and whose channel holds no word to refuse always takes
a next step: no phase, no command and no strobe can fail or wait on another agent. -/
def Obligations.NoRunTimeException : Prop :=
  ∀ s : State, Ready s → BlockInv s → NoWordToRefuse s → ∃ t, step s = .next t

/-! The fairness of R153 and R184, which the model has built in (logs 1, 17). The runs are those in which nobody
presents a further bus word. -/

/-- R153: every state with `REG_FAIL = 0` and `REG_OK = true`, in boot or after it, is followed by a posting of
`FIRE_PEND`. -/
def Obligations.PostingsRecur : Prop :=
  ∀ s : State, BlockInv s → BootInv s → NoWordToRefuse s → s.regFail = 0#1 → s.cfg.regOk = true →
    ∃ n t u, steps n s = .next t ∧ fetch t = .strobe 1#1 ∧ step t = .next u ∧ u.firePend = 1#1

/-- R184, R152: a posted firing is accepted, in IDLE, after at most 16 steps: those of a firing in progress, each
with at most one strobe after it, a raised strobe and a word in the channel. -/
def Obligations.PostedFiringIsAccepted : Prop :=
  ∀ s : State, Ready s → BlockInv s → NoWordToRefuse s → s.firePend = 1#1 →
    ∃ n t u, n ≤ 16 ∧ steps n s = .next t ∧ t.ph = Ph.idle ∧ t.firePend = 1#1 ∧
      step t = .next u ∧ u.ph = Ph.read ∧ u.firePend = 0#1

/-- R122, R153, R184: the firings never end: however many steps are taken, a firing is accepted after them. -/
def Obligations.FiringsNeverEnd : Prop :=
  ∀ s : State, BlockInv s → BootInv s → NoWordToRefuse s → s.regFail = 0#1 → s.cfg.regOk = true →
    ∀ k, ∃ n t u, k ≤ n ∧ steps n s = .next t ∧ t.ph = Ph.idle ∧ t.firePend = 1#1 ∧
      step t = .next u ∧ u.ph = Ph.read ∧ u.firePend = 0#1
end

