-- ==== Sys2Proof/Laws/Decode.lean ====
section
/-!
SUPPORT. The fields of a bus command word, and what each verdict says of the word.
-/

namespace Sys2Proof

/-- The fields of an assembled word are the fields it was assembled from (R63). -/
@[simp] theorem busOp_busWord (op : BitVec 2) (mask value : Word) : busOp (busWord op mask value) = op := by
  apply BitVec.eq_of_getLsbD_eq
  intro n hn
  simp only [busOp, busWord, BitVec.getLsbD_extractLsb', hn, decide_true, Bool.true_and, BitVec.getLsbD_append]
  rw [if_neg (by omega), if_neg (by omega)]
  congr 1
  omega

@[simp] theorem busMask_busWord (op : BitVec 2) (mask value : Word) : busMask (busWord op mask value) = mask := by
  apply BitVec.eq_of_getLsbD_eq
  intro n hn
  simp only [busMask, busWord, BitVec.getLsbD_extractLsb', hn, decide_true, Bool.true_and, BitVec.getLsbD_append]
  rw [if_neg (by omega), if_pos (by omega)]
  congr 1
  omega

@[simp] theorem busValue_busWord (op : BitVec 2) (mask value : Word) : busValue (busWord op mask value) = value := by
  apply BitVec.eq_of_getLsbD_eq
  intro n hn
  simp only [busValue, busWord, BitVec.getLsbD_extractLsb', hn, decide_true, Bool.true_and, BitVec.getLsbD_append]
  rw [if_pos (by omega)]
  congr 1
  omega

/-- A word is its three fields (R63): no bit of the 66 is dropped. -/
theorem busWord_fields (w : BusWord) : busWord (busOp w) (busMask w) (busValue w) = w := by
  apply BitVec.eq_of_getLsbD_eq
  intro n hn
  simp only [busOp, busMask, busValue, busWord, BitVec.getLsbD_extractLsb', BitVec.getLsbD_append]
  by_cases h0 : n < 32
  · simp [h0]
  · by_cases h1 : n < 64
    · simp only [h0, if_false, show n - 32 < 32 by omega, if_true, decide_true, Bool.true_and]
      congr 1
      omega
    · simp only [h0, if_false, show ¬ n - 32 < 32 by omega, show n - 32 - 32 < 2 by omega, decide_true,
        Bool.true_and]
      congr 1
      omega

/-- The phase an instruction's code names, for each code (R62). -/
theorem decodePhase_cases (p : PhaseCode) :
    p = Ph.idle ∧ decodePhase p = .idle ∨ p = Ph.read ∧ decodePhase p = .read ∨
    p = Ph.compute ∧ decodePhase p = .compute ∨ p = Ph.clrdig ∧ decodePhase p = .clrdig ∨
    p = Ph.seg ∧ decodePhase p = .seg ∨ p = Ph.setdig ∧ decodePhase p = .setdig ∨
    p = Ph.advance ∧ decodePhase p = .advance ∨ p = Ph.ret ∧ decodePhase p = .ret := by
  revert p
  decide

/-- What an instruction verdict says of a bus word (R64, R65). -/
theorem decodeBus_instr {w : BusWord} {i : Instr} (h : decodeBus w = .instr i) :
    (busOp w = Op.clr ∧ busValue w = 0#32 ∧ i = .clr (busMask w)) ∨
    (busOp w = Op.put ∧ busValue w &&& ~~~busMask w = 0#32 ∧ i = .put (busMask w) (busValue w)) ∨
    (busOp w = Op.reserved2 ∧ i = .reserved2 (busMask w) (busValue w)) ∨
    (busOp w = Op.reserved3 ∧ i = .reserved3 (busMask w) (busValue w)) := by
  have hop : ∀ o : BitVec 2, o ≠ Op.clr → o ≠ Op.put → o ≠ Op.reserved2 → o = Op.reserved3 := by decide
  unfold decodeBus at h
  split at h <;> rename_i h0
  · split at h <;> rename_i hv
    · cases h; exact .inl ⟨h0, hv, rfl⟩
    · cases h
  split at h <;> rename_i h1
  · split at h <;> rename_i hv
    · cases h; exact .inr (.inl ⟨h1, hv, rfl⟩)
    · cases h
  split at h <;> rename_i h2
  · cases h; exact .inr (.inr (.inl ⟨h2, rfl⟩))
  · cases h; exact .inr (.inr (.inr ⟨hop _ h0 h1 h2, rfl⟩))

/-- A strobe names FIRE exactly at level 1 (R68). -/
theorem decodeStrobe_instr {b : BitVec 1} {i : Instr} (h : decodeStrobe b = .instr i) : b = 1#1 ∧ i = .fire := by
  unfold decodeStrobe at h
  split at h <;> rename_i hb
  · cases h; exact ⟨hb, rfl⟩
  · cases h

end Sys2Proof
end

