-- ==== Sys2Proof/Laws/State.lean ====
section
/-!
SUPPORT. One lemma per field per named update of State, and the fields of the reset state, so that no later proof
unfolds a record update.
-/

namespace Sys2Proof.Machine

variable (s : State)

/-! `withPh` -/

@[simp] theorem State.withPh_cfg (p : PhaseCode) : (s.withPh p).cfg = s.cfg := rfl
@[simp] theorem State.withPh_tick (p : PhaseCode) : (s.withPh p).tick = s.tick := rfl
@[simp] theorem State.withPh_ph (p : PhaseCode) : (s.withPh p).ph = p := rfl
@[simp] theorem State.withPh_tl (p : PhaseCode) : (s.withPh p).tl = s.tl := rfl
@[simp] theorem State.withPh_pos (p : PhaseCode) : (s.withPh p).pos = s.pos := rfl
@[simp] theorem State.withPh_dval (p : PhaseCode) : (s.withPh p).dval = s.dval := rfl
@[simp] theorem State.withPh_vis (p : PhaseCode) : (s.withPh p).vis = s.vis := rfl
@[simp] theorem State.withPh_out (p : PhaseCode) : (s.withPh p).out = s.out := rfl
@[simp] theorem State.withPh_dir (p : PhaseCode) : (s.withPh p).dir = s.dir := rfl
@[simp] theorem State.withPh_inv (p : PhaseCode) : (s.withPh p).inv = s.inv := rfl
@[simp] theorem State.withPh_gpio (p : PhaseCode) : (s.withPh p).gpio = s.gpio := rfl
@[simp] theorem State.withPh_drive (p : PhaseCode) : (s.withPh p).drive = s.drive := rfl
@[simp] theorem State.withPh_regFail (p : PhaseCode) : (s.withPh p).regFail = s.regFail := rfl
@[simp] theorem State.withPh_firePend (p : PhaseCode) : (s.withPh p).firePend = s.firePend := rfl
@[simp] theorem State.withPh_timer (p : PhaseCode) : (s.withPh p).timer = s.timer := rfl
@[simp] theorem State.withPh_boot (p : PhaseCode) : (s.withPh p).boot = s.boot := rfl
@[simp] theorem State.withPh_history (p : PhaseCode) : (s.withPh p).history = s.history := rfl
@[simp] theorem State.withPh_busIn (p : PhaseCode) : (s.withPh p).busIn = s.busIn := rfl
@[simp] theorem State.withPh_strobe (p : PhaseCode) : (s.withPh p).strobe = s.strobe := rfl
@[simp] theorem State.withPh_due (p : PhaseCode) : (s.withPh p).due = s.due := rfl
@[simp] theorem State.withPh_draws (p : PhaseCode) : (s.withPh p).draws = s.draws := rfl

/-! `withTick` -/

@[simp] theorem State.withTick_cfg (v : Word) : (s.withTick v).cfg = s.cfg := rfl
@[simp] theorem State.withTick_tick (v : Word) : (s.withTick v).tick = v := rfl
@[simp] theorem State.withTick_ph (v : Word) : (s.withTick v).ph = s.ph := rfl
@[simp] theorem State.withTick_tl (v : Word) : (s.withTick v).tl = s.tl := rfl
@[simp] theorem State.withTick_pos (v : Word) : (s.withTick v).pos = s.pos := rfl
@[simp] theorem State.withTick_dval (v : Word) : (s.withTick v).dval = s.dval := rfl
@[simp] theorem State.withTick_vis (v : Word) : (s.withTick v).vis = s.vis := rfl
@[simp] theorem State.withTick_out (v : Word) : (s.withTick v).out = s.out := rfl
@[simp] theorem State.withTick_dir (v : Word) : (s.withTick v).dir = s.dir := rfl
@[simp] theorem State.withTick_inv (v : Word) : (s.withTick v).inv = s.inv := rfl
@[simp] theorem State.withTick_gpio (v : Word) : (s.withTick v).gpio = s.gpio := rfl
@[simp] theorem State.withTick_drive (v : Word) : (s.withTick v).drive = s.drive := rfl
@[simp] theorem State.withTick_regFail (v : Word) : (s.withTick v).regFail = s.regFail := rfl
@[simp] theorem State.withTick_firePend (v : Word) : (s.withTick v).firePend = s.firePend := rfl
@[simp] theorem State.withTick_timer (v : Word) : (s.withTick v).timer = s.timer := rfl
@[simp] theorem State.withTick_boot (v : Word) : (s.withTick v).boot = s.boot := rfl
@[simp] theorem State.withTick_history (v : Word) : (s.withTick v).history = s.history := rfl
@[simp] theorem State.withTick_busIn (v : Word) : (s.withTick v).busIn = s.busIn := rfl
@[simp] theorem State.withTick_strobe (v : Word) : (s.withTick v).strobe = s.strobe := rfl
@[simp] theorem State.withTick_due (v : Word) : (s.withTick v).due = s.due := rfl
@[simp] theorem State.withTick_draws (v : Word) : (s.withTick v).draws = s.draws := rfl

/-! `withTl` -/

@[simp] theorem State.withTl_cfg (v : Word) : (s.withTl v).cfg = s.cfg := rfl
@[simp] theorem State.withTl_tick (v : Word) : (s.withTl v).tick = s.tick := rfl
@[simp] theorem State.withTl_ph (v : Word) : (s.withTl v).ph = s.ph := rfl
@[simp] theorem State.withTl_tl (v : Word) : (s.withTl v).tl = v := rfl
@[simp] theorem State.withTl_pos (v : Word) : (s.withTl v).pos = s.pos := rfl
@[simp] theorem State.withTl_dval (v : Word) : (s.withTl v).dval = s.dval := rfl
@[simp] theorem State.withTl_vis (v : Word) : (s.withTl v).vis = s.vis := rfl
@[simp] theorem State.withTl_out (v : Word) : (s.withTl v).out = s.out := rfl
@[simp] theorem State.withTl_dir (v : Word) : (s.withTl v).dir = s.dir := rfl
@[simp] theorem State.withTl_inv (v : Word) : (s.withTl v).inv = s.inv := rfl
@[simp] theorem State.withTl_gpio (v : Word) : (s.withTl v).gpio = s.gpio := rfl
@[simp] theorem State.withTl_drive (v : Word) : (s.withTl v).drive = s.drive := rfl
@[simp] theorem State.withTl_regFail (v : Word) : (s.withTl v).regFail = s.regFail := rfl
@[simp] theorem State.withTl_firePend (v : Word) : (s.withTl v).firePend = s.firePend := rfl
@[simp] theorem State.withTl_timer (v : Word) : (s.withTl v).timer = s.timer := rfl
@[simp] theorem State.withTl_boot (v : Word) : (s.withTl v).boot = s.boot := rfl
@[simp] theorem State.withTl_history (v : Word) : (s.withTl v).history = s.history := rfl
@[simp] theorem State.withTl_busIn (v : Word) : (s.withTl v).busIn = s.busIn := rfl
@[simp] theorem State.withTl_strobe (v : Word) : (s.withTl v).strobe = s.strobe := rfl
@[simp] theorem State.withTl_due (v : Word) : (s.withTl v).due = s.due := rfl
@[simp] theorem State.withTl_draws (v : Word) : (s.withTl v).draws = s.draws := rfl

/-! `withSelection` -/

@[simp] theorem State.withSelection_cfg (p : BitVec 3) (d : BitVec 4) (v : BitVec 1) : (s.withSelection p d v).cfg = s.cfg := rfl
@[simp] theorem State.withSelection_tick (p : BitVec 3) (d : BitVec 4) (v : BitVec 1) : (s.withSelection p d v).tick = s.tick := rfl
@[simp] theorem State.withSelection_ph (p : BitVec 3) (d : BitVec 4) (v : BitVec 1) : (s.withSelection p d v).ph = s.ph := rfl
@[simp] theorem State.withSelection_tl (p : BitVec 3) (d : BitVec 4) (v : BitVec 1) : (s.withSelection p d v).tl = s.tl := rfl
@[simp] theorem State.withSelection_pos (p : BitVec 3) (d : BitVec 4) (v : BitVec 1) : (s.withSelection p d v).pos = p := rfl
@[simp] theorem State.withSelection_dval (p : BitVec 3) (d : BitVec 4) (v : BitVec 1) : (s.withSelection p d v).dval = d := rfl
@[simp] theorem State.withSelection_vis (p : BitVec 3) (d : BitVec 4) (v : BitVec 1) : (s.withSelection p d v).vis = v := rfl
@[simp] theorem State.withSelection_out (p : BitVec 3) (d : BitVec 4) (v : BitVec 1) : (s.withSelection p d v).out = s.out := rfl
@[simp] theorem State.withSelection_dir (p : BitVec 3) (d : BitVec 4) (v : BitVec 1) : (s.withSelection p d v).dir = s.dir := rfl
@[simp] theorem State.withSelection_inv (p : BitVec 3) (d : BitVec 4) (v : BitVec 1) : (s.withSelection p d v).inv = s.inv := rfl
@[simp] theorem State.withSelection_gpio (p : BitVec 3) (d : BitVec 4) (v : BitVec 1) : (s.withSelection p d v).gpio = s.gpio := rfl
@[simp] theorem State.withSelection_drive (p : BitVec 3) (d : BitVec 4) (v : BitVec 1) : (s.withSelection p d v).drive = s.drive := rfl
@[simp] theorem State.withSelection_regFail (p : BitVec 3) (d : BitVec 4) (v : BitVec 1) : (s.withSelection p d v).regFail = s.regFail := rfl
@[simp] theorem State.withSelection_firePend (p : BitVec 3) (d : BitVec 4) (v : BitVec 1) : (s.withSelection p d v).firePend = s.firePend := rfl
@[simp] theorem State.withSelection_timer (p : BitVec 3) (d : BitVec 4) (v : BitVec 1) : (s.withSelection p d v).timer = s.timer := rfl
@[simp] theorem State.withSelection_boot (p : BitVec 3) (d : BitVec 4) (v : BitVec 1) : (s.withSelection p d v).boot = s.boot := rfl
@[simp] theorem State.withSelection_history (p : BitVec 3) (d : BitVec 4) (v : BitVec 1) : (s.withSelection p d v).history = s.history := rfl
@[simp] theorem State.withSelection_busIn (p : BitVec 3) (d : BitVec 4) (v : BitVec 1) : (s.withSelection p d v).busIn = s.busIn := rfl
@[simp] theorem State.withSelection_strobe (p : BitVec 3) (d : BitVec 4) (v : BitVec 1) : (s.withSelection p d v).strobe = s.strobe := rfl
@[simp] theorem State.withSelection_due (p : BitVec 3) (d : BitVec 4) (v : BitVec 1) : (s.withSelection p d v).due = s.due := rfl
@[simp] theorem State.withSelection_draws (p : BitVec 3) (d : BitVec 4) (v : BitVec 1) : (s.withSelection p d v).draws = s.draws := rfl

/-! `withOut` -/

@[simp] theorem State.withOut_cfg (v : Word) : (s.withOut v).cfg = s.cfg := rfl
@[simp] theorem State.withOut_tick (v : Word) : (s.withOut v).tick = s.tick := rfl
@[simp] theorem State.withOut_ph (v : Word) : (s.withOut v).ph = s.ph := rfl
@[simp] theorem State.withOut_tl (v : Word) : (s.withOut v).tl = s.tl := rfl
@[simp] theorem State.withOut_pos (v : Word) : (s.withOut v).pos = s.pos := rfl
@[simp] theorem State.withOut_dval (v : Word) : (s.withOut v).dval = s.dval := rfl
@[simp] theorem State.withOut_vis (v : Word) : (s.withOut v).vis = s.vis := rfl
@[simp] theorem State.withOut_out (v : Word) : (s.withOut v).out = v := rfl
@[simp] theorem State.withOut_dir (v : Word) : (s.withOut v).dir = s.dir := rfl
@[simp] theorem State.withOut_inv (v : Word) : (s.withOut v).inv = s.inv := rfl
@[simp] theorem State.withOut_gpio (v : Word) : (s.withOut v).gpio = s.gpio := rfl
@[simp] theorem State.withOut_drive (v : Word) : (s.withOut v).drive = s.drive := rfl
@[simp] theorem State.withOut_regFail (v : Word) : (s.withOut v).regFail = s.regFail := rfl
@[simp] theorem State.withOut_firePend (v : Word) : (s.withOut v).firePend = s.firePend := rfl
@[simp] theorem State.withOut_timer (v : Word) : (s.withOut v).timer = s.timer := rfl
@[simp] theorem State.withOut_boot (v : Word) : (s.withOut v).boot = s.boot := rfl
@[simp] theorem State.withOut_history (v : Word) : (s.withOut v).history = s.history := rfl
@[simp] theorem State.withOut_busIn (v : Word) : (s.withOut v).busIn = s.busIn := rfl
@[simp] theorem State.withOut_strobe (v : Word) : (s.withOut v).strobe = s.strobe := rfl
@[simp] theorem State.withOut_due (v : Word) : (s.withOut v).due = s.due := rfl
@[simp] theorem State.withOut_draws (v : Word) : (s.withOut v).draws = s.draws := rfl

/-! `withHistory` -/

@[simp] theorem State.withHistory_cfg (h : List BusEvent) : (s.withHistory h).cfg = s.cfg := rfl
@[simp] theorem State.withHistory_tick (h : List BusEvent) : (s.withHistory h).tick = s.tick := rfl
@[simp] theorem State.withHistory_ph (h : List BusEvent) : (s.withHistory h).ph = s.ph := rfl
@[simp] theorem State.withHistory_tl (h : List BusEvent) : (s.withHistory h).tl = s.tl := rfl
@[simp] theorem State.withHistory_pos (h : List BusEvent) : (s.withHistory h).pos = s.pos := rfl
@[simp] theorem State.withHistory_dval (h : List BusEvent) : (s.withHistory h).dval = s.dval := rfl
@[simp] theorem State.withHistory_vis (h : List BusEvent) : (s.withHistory h).vis = s.vis := rfl
@[simp] theorem State.withHistory_out (h : List BusEvent) : (s.withHistory h).out = s.out := rfl
@[simp] theorem State.withHistory_dir (h : List BusEvent) : (s.withHistory h).dir = s.dir := rfl
@[simp] theorem State.withHistory_inv (h : List BusEvent) : (s.withHistory h).inv = s.inv := rfl
@[simp] theorem State.withHistory_gpio (h : List BusEvent) : (s.withHistory h).gpio = s.gpio := rfl
@[simp] theorem State.withHistory_drive (h : List BusEvent) : (s.withHistory h).drive = s.drive := rfl
@[simp] theorem State.withHistory_regFail (h : List BusEvent) : (s.withHistory h).regFail = s.regFail := rfl
@[simp] theorem State.withHistory_firePend (h : List BusEvent) : (s.withHistory h).firePend = s.firePend := rfl
@[simp] theorem State.withHistory_timer (h : List BusEvent) : (s.withHistory h).timer = s.timer := rfl
@[simp] theorem State.withHistory_boot (h : List BusEvent) : (s.withHistory h).boot = s.boot := rfl
@[simp] theorem State.withHistory_history (h : List BusEvent) : (s.withHistory h).history = h := rfl
@[simp] theorem State.withHistory_busIn (h : List BusEvent) : (s.withHistory h).busIn = s.busIn := rfl
@[simp] theorem State.withHistory_strobe (h : List BusEvent) : (s.withHistory h).strobe = s.strobe := rfl
@[simp] theorem State.withHistory_due (h : List BusEvent) : (s.withHistory h).due = s.due := rfl
@[simp] theorem State.withHistory_draws (h : List BusEvent) : (s.withHistory h).draws = s.draws := rfl

/-! `withPins` -/

@[simp] theorem State.withPins_cfg (g d i : Word) (l : Vector Nat 32) : (s.withPins g d i l).cfg = s.cfg := rfl
@[simp] theorem State.withPins_tick (g d i : Word) (l : Vector Nat 32) : (s.withPins g d i l).tick = s.tick := rfl
@[simp] theorem State.withPins_ph (g d i : Word) (l : Vector Nat 32) : (s.withPins g d i l).ph = s.ph := rfl
@[simp] theorem State.withPins_tl (g d i : Word) (l : Vector Nat 32) : (s.withPins g d i l).tl = s.tl := rfl
@[simp] theorem State.withPins_pos (g d i : Word) (l : Vector Nat 32) : (s.withPins g d i l).pos = s.pos := rfl
@[simp] theorem State.withPins_dval (g d i : Word) (l : Vector Nat 32) : (s.withPins g d i l).dval = s.dval := rfl
@[simp] theorem State.withPins_vis (g d i : Word) (l : Vector Nat 32) : (s.withPins g d i l).vis = s.vis := rfl
@[simp] theorem State.withPins_out (g d i : Word) (l : Vector Nat 32) : (s.withPins g d i l).out = s.out := rfl
@[simp] theorem State.withPins_dir (g d i : Word) (l : Vector Nat 32) : (s.withPins g d i l).dir = d := rfl
@[simp] theorem State.withPins_inv (g d i : Word) (l : Vector Nat 32) : (s.withPins g d i l).inv = i := rfl
@[simp] theorem State.withPins_gpio (g d i : Word) (l : Vector Nat 32) : (s.withPins g d i l).gpio = g := rfl
@[simp] theorem State.withPins_drive (g d i : Word) (l : Vector Nat 32) : (s.withPins g d i l).drive = l := rfl
@[simp] theorem State.withPins_regFail (g d i : Word) (l : Vector Nat 32) : (s.withPins g d i l).regFail = s.regFail := rfl
@[simp] theorem State.withPins_firePend (g d i : Word) (l : Vector Nat 32) : (s.withPins g d i l).firePend = s.firePend := rfl
@[simp] theorem State.withPins_timer (g d i : Word) (l : Vector Nat 32) : (s.withPins g d i l).timer = s.timer := rfl
@[simp] theorem State.withPins_boot (g d i : Word) (l : Vector Nat 32) : (s.withPins g d i l).boot = s.boot := rfl
@[simp] theorem State.withPins_history (g d i : Word) (l : Vector Nat 32) : (s.withPins g d i l).history = s.history := rfl
@[simp] theorem State.withPins_busIn (g d i : Word) (l : Vector Nat 32) : (s.withPins g d i l).busIn = s.busIn := rfl
@[simp] theorem State.withPins_strobe (g d i : Word) (l : Vector Nat 32) : (s.withPins g d i l).strobe = s.strobe := rfl
@[simp] theorem State.withPins_due (g d i : Word) (l : Vector Nat 32) : (s.withPins g d i l).due = s.due := rfl
@[simp] theorem State.withPins_draws (g d i : Word) (l : Vector Nat 32) : (s.withPins g d i l).draws = s.draws := rfl

/-! `withRegFail` -/

@[simp] theorem State.withRegFail_cfg (b : BitVec 1) : (s.withRegFail b).cfg = s.cfg := rfl
@[simp] theorem State.withRegFail_tick (b : BitVec 1) : (s.withRegFail b).tick = s.tick := rfl
@[simp] theorem State.withRegFail_ph (b : BitVec 1) : (s.withRegFail b).ph = s.ph := rfl
@[simp] theorem State.withRegFail_tl (b : BitVec 1) : (s.withRegFail b).tl = s.tl := rfl
@[simp] theorem State.withRegFail_pos (b : BitVec 1) : (s.withRegFail b).pos = s.pos := rfl
@[simp] theorem State.withRegFail_dval (b : BitVec 1) : (s.withRegFail b).dval = s.dval := rfl
@[simp] theorem State.withRegFail_vis (b : BitVec 1) : (s.withRegFail b).vis = s.vis := rfl
@[simp] theorem State.withRegFail_out (b : BitVec 1) : (s.withRegFail b).out = s.out := rfl
@[simp] theorem State.withRegFail_dir (b : BitVec 1) : (s.withRegFail b).dir = s.dir := rfl
@[simp] theorem State.withRegFail_inv (b : BitVec 1) : (s.withRegFail b).inv = s.inv := rfl
@[simp] theorem State.withRegFail_gpio (b : BitVec 1) : (s.withRegFail b).gpio = s.gpio := rfl
@[simp] theorem State.withRegFail_drive (b : BitVec 1) : (s.withRegFail b).drive = s.drive := rfl
@[simp] theorem State.withRegFail_regFail (b : BitVec 1) : (s.withRegFail b).regFail = b := rfl
@[simp] theorem State.withRegFail_firePend (b : BitVec 1) : (s.withRegFail b).firePend = s.firePend := rfl
@[simp] theorem State.withRegFail_timer (b : BitVec 1) : (s.withRegFail b).timer = s.timer := rfl
@[simp] theorem State.withRegFail_boot (b : BitVec 1) : (s.withRegFail b).boot = s.boot := rfl
@[simp] theorem State.withRegFail_history (b : BitVec 1) : (s.withRegFail b).history = s.history := rfl
@[simp] theorem State.withRegFail_busIn (b : BitVec 1) : (s.withRegFail b).busIn = s.busIn := rfl
@[simp] theorem State.withRegFail_strobe (b : BitVec 1) : (s.withRegFail b).strobe = s.strobe := rfl
@[simp] theorem State.withRegFail_due (b : BitVec 1) : (s.withRegFail b).due = s.due := rfl
@[simp] theorem State.withRegFail_draws (b : BitVec 1) : (s.withRegFail b).draws = s.draws := rfl

/-! `withFirePend` -/

@[simp] theorem State.withFirePend_cfg (b : BitVec 1) : (s.withFirePend b).cfg = s.cfg := rfl
@[simp] theorem State.withFirePend_tick (b : BitVec 1) : (s.withFirePend b).tick = s.tick := rfl
@[simp] theorem State.withFirePend_ph (b : BitVec 1) : (s.withFirePend b).ph = s.ph := rfl
@[simp] theorem State.withFirePend_tl (b : BitVec 1) : (s.withFirePend b).tl = s.tl := rfl
@[simp] theorem State.withFirePend_pos (b : BitVec 1) : (s.withFirePend b).pos = s.pos := rfl
@[simp] theorem State.withFirePend_dval (b : BitVec 1) : (s.withFirePend b).dval = s.dval := rfl
@[simp] theorem State.withFirePend_vis (b : BitVec 1) : (s.withFirePend b).vis = s.vis := rfl
@[simp] theorem State.withFirePend_out (b : BitVec 1) : (s.withFirePend b).out = s.out := rfl
@[simp] theorem State.withFirePend_dir (b : BitVec 1) : (s.withFirePend b).dir = s.dir := rfl
@[simp] theorem State.withFirePend_inv (b : BitVec 1) : (s.withFirePend b).inv = s.inv := rfl
@[simp] theorem State.withFirePend_gpio (b : BitVec 1) : (s.withFirePend b).gpio = s.gpio := rfl
@[simp] theorem State.withFirePend_drive (b : BitVec 1) : (s.withFirePend b).drive = s.drive := rfl
@[simp] theorem State.withFirePend_regFail (b : BitVec 1) : (s.withFirePend b).regFail = s.regFail := rfl
@[simp] theorem State.withFirePend_firePend (b : BitVec 1) : (s.withFirePend b).firePend = b := rfl
@[simp] theorem State.withFirePend_timer (b : BitVec 1) : (s.withFirePend b).timer = s.timer := rfl
@[simp] theorem State.withFirePend_boot (b : BitVec 1) : (s.withFirePend b).boot = s.boot := rfl
@[simp] theorem State.withFirePend_history (b : BitVec 1) : (s.withFirePend b).history = s.history := rfl
@[simp] theorem State.withFirePend_busIn (b : BitVec 1) : (s.withFirePend b).busIn = s.busIn := rfl
@[simp] theorem State.withFirePend_strobe (b : BitVec 1) : (s.withFirePend b).strobe = s.strobe := rfl
@[simp] theorem State.withFirePend_due (b : BitVec 1) : (s.withFirePend b).due = s.due := rfl
@[simp] theorem State.withFirePend_draws (b : BitVec 1) : (s.withFirePend b).draws = s.draws := rfl

/-! `withTimer` -/

@[simp] theorem State.withTimer_cfg (r : Option Int) : (s.withTimer r).cfg = s.cfg := rfl
@[simp] theorem State.withTimer_tick (r : Option Int) : (s.withTimer r).tick = s.tick := rfl
@[simp] theorem State.withTimer_ph (r : Option Int) : (s.withTimer r).ph = s.ph := rfl
@[simp] theorem State.withTimer_tl (r : Option Int) : (s.withTimer r).tl = s.tl := rfl
@[simp] theorem State.withTimer_pos (r : Option Int) : (s.withTimer r).pos = s.pos := rfl
@[simp] theorem State.withTimer_dval (r : Option Int) : (s.withTimer r).dval = s.dval := rfl
@[simp] theorem State.withTimer_vis (r : Option Int) : (s.withTimer r).vis = s.vis := rfl
@[simp] theorem State.withTimer_out (r : Option Int) : (s.withTimer r).out = s.out := rfl
@[simp] theorem State.withTimer_dir (r : Option Int) : (s.withTimer r).dir = s.dir := rfl
@[simp] theorem State.withTimer_inv (r : Option Int) : (s.withTimer r).inv = s.inv := rfl
@[simp] theorem State.withTimer_gpio (r : Option Int) : (s.withTimer r).gpio = s.gpio := rfl
@[simp] theorem State.withTimer_drive (r : Option Int) : (s.withTimer r).drive = s.drive := rfl
@[simp] theorem State.withTimer_regFail (r : Option Int) : (s.withTimer r).regFail = s.regFail := rfl
@[simp] theorem State.withTimer_firePend (r : Option Int) : (s.withTimer r).firePend = s.firePend := rfl
@[simp] theorem State.withTimer_timer (r : Option Int) : (s.withTimer r).timer = r := rfl
@[simp] theorem State.withTimer_boot (r : Option Int) : (s.withTimer r).boot = s.boot := rfl
@[simp] theorem State.withTimer_history (r : Option Int) : (s.withTimer r).history = s.history := rfl
@[simp] theorem State.withTimer_busIn (r : Option Int) : (s.withTimer r).busIn = s.busIn := rfl
@[simp] theorem State.withTimer_strobe (r : Option Int) : (s.withTimer r).strobe = s.strobe := rfl
@[simp] theorem State.withTimer_due (r : Option Int) : (s.withTimer r).due = s.due := rfl
@[simp] theorem State.withTimer_draws (r : Option Int) : (s.withTimer r).draws = s.draws := rfl

/-! `withBoot` -/

@[simp] theorem State.withBoot_cfg (b : Boot) : (s.withBoot b).cfg = s.cfg := rfl
@[simp] theorem State.withBoot_tick (b : Boot) : (s.withBoot b).tick = s.tick := rfl
@[simp] theorem State.withBoot_ph (b : Boot) : (s.withBoot b).ph = s.ph := rfl
@[simp] theorem State.withBoot_tl (b : Boot) : (s.withBoot b).tl = s.tl := rfl
@[simp] theorem State.withBoot_pos (b : Boot) : (s.withBoot b).pos = s.pos := rfl
@[simp] theorem State.withBoot_dval (b : Boot) : (s.withBoot b).dval = s.dval := rfl
@[simp] theorem State.withBoot_vis (b : Boot) : (s.withBoot b).vis = s.vis := rfl
@[simp] theorem State.withBoot_out (b : Boot) : (s.withBoot b).out = s.out := rfl
@[simp] theorem State.withBoot_dir (b : Boot) : (s.withBoot b).dir = s.dir := rfl
@[simp] theorem State.withBoot_inv (b : Boot) : (s.withBoot b).inv = s.inv := rfl
@[simp] theorem State.withBoot_gpio (b : Boot) : (s.withBoot b).gpio = s.gpio := rfl
@[simp] theorem State.withBoot_drive (b : Boot) : (s.withBoot b).drive = s.drive := rfl
@[simp] theorem State.withBoot_regFail (b : Boot) : (s.withBoot b).regFail = s.regFail := rfl
@[simp] theorem State.withBoot_firePend (b : Boot) : (s.withBoot b).firePend = s.firePend := rfl
@[simp] theorem State.withBoot_timer (b : Boot) : (s.withBoot b).timer = s.timer := rfl
@[simp] theorem State.withBoot_boot (b : Boot) : (s.withBoot b).boot = b := rfl
@[simp] theorem State.withBoot_history (b : Boot) : (s.withBoot b).history = s.history := rfl
@[simp] theorem State.withBoot_busIn (b : Boot) : (s.withBoot b).busIn = s.busIn := rfl
@[simp] theorem State.withBoot_strobe (b : Boot) : (s.withBoot b).strobe = s.strobe := rfl
@[simp] theorem State.withBoot_due (b : Boot) : (s.withBoot b).due = s.due := rfl
@[simp] theorem State.withBoot_draws (b : Boot) : (s.withBoot b).draws = s.draws := rfl

/-! `withBusIn` -/

@[simp] theorem State.withBusIn_cfg (w : Option BusWord) : (s.withBusIn w).cfg = s.cfg := rfl
@[simp] theorem State.withBusIn_tick (w : Option BusWord) : (s.withBusIn w).tick = s.tick := rfl
@[simp] theorem State.withBusIn_ph (w : Option BusWord) : (s.withBusIn w).ph = s.ph := rfl
@[simp] theorem State.withBusIn_tl (w : Option BusWord) : (s.withBusIn w).tl = s.tl := rfl
@[simp] theorem State.withBusIn_pos (w : Option BusWord) : (s.withBusIn w).pos = s.pos := rfl
@[simp] theorem State.withBusIn_dval (w : Option BusWord) : (s.withBusIn w).dval = s.dval := rfl
@[simp] theorem State.withBusIn_vis (w : Option BusWord) : (s.withBusIn w).vis = s.vis := rfl
@[simp] theorem State.withBusIn_out (w : Option BusWord) : (s.withBusIn w).out = s.out := rfl
@[simp] theorem State.withBusIn_dir (w : Option BusWord) : (s.withBusIn w).dir = s.dir := rfl
@[simp] theorem State.withBusIn_inv (w : Option BusWord) : (s.withBusIn w).inv = s.inv := rfl
@[simp] theorem State.withBusIn_gpio (w : Option BusWord) : (s.withBusIn w).gpio = s.gpio := rfl
@[simp] theorem State.withBusIn_drive (w : Option BusWord) : (s.withBusIn w).drive = s.drive := rfl
@[simp] theorem State.withBusIn_regFail (w : Option BusWord) : (s.withBusIn w).regFail = s.regFail := rfl
@[simp] theorem State.withBusIn_firePend (w : Option BusWord) : (s.withBusIn w).firePend = s.firePend := rfl
@[simp] theorem State.withBusIn_timer (w : Option BusWord) : (s.withBusIn w).timer = s.timer := rfl
@[simp] theorem State.withBusIn_boot (w : Option BusWord) : (s.withBusIn w).boot = s.boot := rfl
@[simp] theorem State.withBusIn_history (w : Option BusWord) : (s.withBusIn w).history = s.history := rfl
@[simp] theorem State.withBusIn_busIn (w : Option BusWord) : (s.withBusIn w).busIn = w := rfl
@[simp] theorem State.withBusIn_strobe (w : Option BusWord) : (s.withBusIn w).strobe = s.strobe := rfl
@[simp] theorem State.withBusIn_due (w : Option BusWord) : (s.withBusIn w).due = s.due := rfl
@[simp] theorem State.withBusIn_draws (w : Option BusWord) : (s.withBusIn w).draws = s.draws := rfl

/-! `withStrobe` -/

@[simp] theorem State.withStrobe_cfg (b : BitVec 1) : (s.withStrobe b).cfg = s.cfg := rfl
@[simp] theorem State.withStrobe_tick (b : BitVec 1) : (s.withStrobe b).tick = s.tick := rfl
@[simp] theorem State.withStrobe_ph (b : BitVec 1) : (s.withStrobe b).ph = s.ph := rfl
@[simp] theorem State.withStrobe_tl (b : BitVec 1) : (s.withStrobe b).tl = s.tl := rfl
@[simp] theorem State.withStrobe_pos (b : BitVec 1) : (s.withStrobe b).pos = s.pos := rfl
@[simp] theorem State.withStrobe_dval (b : BitVec 1) : (s.withStrobe b).dval = s.dval := rfl
@[simp] theorem State.withStrobe_vis (b : BitVec 1) : (s.withStrobe b).vis = s.vis := rfl
@[simp] theorem State.withStrobe_out (b : BitVec 1) : (s.withStrobe b).out = s.out := rfl
@[simp] theorem State.withStrobe_dir (b : BitVec 1) : (s.withStrobe b).dir = s.dir := rfl
@[simp] theorem State.withStrobe_inv (b : BitVec 1) : (s.withStrobe b).inv = s.inv := rfl
@[simp] theorem State.withStrobe_gpio (b : BitVec 1) : (s.withStrobe b).gpio = s.gpio := rfl
@[simp] theorem State.withStrobe_drive (b : BitVec 1) : (s.withStrobe b).drive = s.drive := rfl
@[simp] theorem State.withStrobe_regFail (b : BitVec 1) : (s.withStrobe b).regFail = s.regFail := rfl
@[simp] theorem State.withStrobe_firePend (b : BitVec 1) : (s.withStrobe b).firePend = s.firePend := rfl
@[simp] theorem State.withStrobe_timer (b : BitVec 1) : (s.withStrobe b).timer = s.timer := rfl
@[simp] theorem State.withStrobe_boot (b : BitVec 1) : (s.withStrobe b).boot = s.boot := rfl
@[simp] theorem State.withStrobe_history (b : BitVec 1) : (s.withStrobe b).history = s.history := rfl
@[simp] theorem State.withStrobe_busIn (b : BitVec 1) : (s.withStrobe b).busIn = s.busIn := rfl
@[simp] theorem State.withStrobe_strobe (b : BitVec 1) : (s.withStrobe b).strobe = b := rfl
@[simp] theorem State.withStrobe_due (b : BitVec 1) : (s.withStrobe b).due = s.due := rfl
@[simp] theorem State.withStrobe_draws (b : BitVec 1) : (s.withStrobe b).draws = s.draws := rfl

/-! `withDue` -/

@[simp] theorem State.withDue_cfg (n : Nat) : (s.withDue n).cfg = s.cfg := rfl
@[simp] theorem State.withDue_tick (n : Nat) : (s.withDue n).tick = s.tick := rfl
@[simp] theorem State.withDue_ph (n : Nat) : (s.withDue n).ph = s.ph := rfl
@[simp] theorem State.withDue_tl (n : Nat) : (s.withDue n).tl = s.tl := rfl
@[simp] theorem State.withDue_pos (n : Nat) : (s.withDue n).pos = s.pos := rfl
@[simp] theorem State.withDue_dval (n : Nat) : (s.withDue n).dval = s.dval := rfl
@[simp] theorem State.withDue_vis (n : Nat) : (s.withDue n).vis = s.vis := rfl
@[simp] theorem State.withDue_out (n : Nat) : (s.withDue n).out = s.out := rfl
@[simp] theorem State.withDue_dir (n : Nat) : (s.withDue n).dir = s.dir := rfl
@[simp] theorem State.withDue_inv (n : Nat) : (s.withDue n).inv = s.inv := rfl
@[simp] theorem State.withDue_gpio (n : Nat) : (s.withDue n).gpio = s.gpio := rfl
@[simp] theorem State.withDue_drive (n : Nat) : (s.withDue n).drive = s.drive := rfl
@[simp] theorem State.withDue_regFail (n : Nat) : (s.withDue n).regFail = s.regFail := rfl
@[simp] theorem State.withDue_firePend (n : Nat) : (s.withDue n).firePend = s.firePend := rfl
@[simp] theorem State.withDue_timer (n : Nat) : (s.withDue n).timer = s.timer := rfl
@[simp] theorem State.withDue_boot (n : Nat) : (s.withDue n).boot = s.boot := rfl
@[simp] theorem State.withDue_history (n : Nat) : (s.withDue n).history = s.history := rfl
@[simp] theorem State.withDue_busIn (n : Nat) : (s.withDue n).busIn = s.busIn := rfl
@[simp] theorem State.withDue_strobe (n : Nat) : (s.withDue n).strobe = s.strobe := rfl
@[simp] theorem State.withDue_due (n : Nat) : (s.withDue n).due = n := rfl
@[simp] theorem State.withDue_draws (n : Nat) : (s.withDue n).draws = s.draws := rfl

/-! `withDraws` -/

@[simp] theorem State.withDraws_cfg (n : Nat) : (s.withDraws n).cfg = s.cfg := rfl
@[simp] theorem State.withDraws_tick (n : Nat) : (s.withDraws n).tick = s.tick := rfl
@[simp] theorem State.withDraws_ph (n : Nat) : (s.withDraws n).ph = s.ph := rfl
@[simp] theorem State.withDraws_tl (n : Nat) : (s.withDraws n).tl = s.tl := rfl
@[simp] theorem State.withDraws_pos (n : Nat) : (s.withDraws n).pos = s.pos := rfl
@[simp] theorem State.withDraws_dval (n : Nat) : (s.withDraws n).dval = s.dval := rfl
@[simp] theorem State.withDraws_vis (n : Nat) : (s.withDraws n).vis = s.vis := rfl
@[simp] theorem State.withDraws_out (n : Nat) : (s.withDraws n).out = s.out := rfl
@[simp] theorem State.withDraws_dir (n : Nat) : (s.withDraws n).dir = s.dir := rfl
@[simp] theorem State.withDraws_inv (n : Nat) : (s.withDraws n).inv = s.inv := rfl
@[simp] theorem State.withDraws_gpio (n : Nat) : (s.withDraws n).gpio = s.gpio := rfl
@[simp] theorem State.withDraws_drive (n : Nat) : (s.withDraws n).drive = s.drive := rfl
@[simp] theorem State.withDraws_regFail (n : Nat) : (s.withDraws n).regFail = s.regFail := rfl
@[simp] theorem State.withDraws_firePend (n : Nat) : (s.withDraws n).firePend = s.firePend := rfl
@[simp] theorem State.withDraws_timer (n : Nat) : (s.withDraws n).timer = s.timer := rfl
@[simp] theorem State.withDraws_boot (n : Nat) : (s.withDraws n).boot = s.boot := rfl
@[simp] theorem State.withDraws_history (n : Nat) : (s.withDraws n).history = s.history := rfl
@[simp] theorem State.withDraws_busIn (n : Nat) : (s.withDraws n).busIn = s.busIn := rfl
@[simp] theorem State.withDraws_strobe (n : Nat) : (s.withDraws n).strobe = s.strobe := rfl
@[simp] theorem State.withDraws_due (n : Nat) : (s.withDraws n).due = s.due := rfl
@[simp] theorem State.withDraws_draws (n : Nat) : (s.withDraws n).draws = n := rfl

/-! The reset state. -/

@[simp] theorem State.resetWith_cfg (c : Config) : (State.resetWith c).cfg = c := rfl
@[simp] theorem State.resetWith_tick (c : Config) : (State.resetWith c).tick = 0#32 := rfl
@[simp] theorem State.resetWith_ph (c : Config) : (State.resetWith c).ph = 0b000#3 := rfl
@[simp] theorem State.resetWith_tl (c : Config) : (State.resetWith c).tl = 0#32 := rfl
@[simp] theorem State.resetWith_pos (c : Config) : (State.resetWith c).pos = 0#3 := rfl
@[simp] theorem State.resetWith_dval (c : Config) : (State.resetWith c).dval = 0#4 := rfl
@[simp] theorem State.resetWith_vis (c : Config) : (State.resetWith c).vis = 0#1 := rfl
@[simp] theorem State.resetWith_out (c : Config) : (State.resetWith c).out = 0#32 := rfl
@[simp] theorem State.resetWith_dir (c : Config) : (State.resetWith c).dir = 0#32 := rfl
@[simp] theorem State.resetWith_inv (c : Config) : (State.resetWith c).inv = 0#32 := rfl
@[simp] theorem State.resetWith_gpio (c : Config) : (State.resetWith c).gpio = 0#32 := rfl
@[simp] theorem State.resetWith_drive (c : Config) : (State.resetWith c).drive = Vector.replicate 32 0 := rfl
@[simp] theorem State.resetWith_regFail (c : Config) : (State.resetWith c).regFail = 0#1 := rfl
@[simp] theorem State.resetWith_firePend (c : Config) : (State.resetWith c).firePend = 0#1 := rfl
@[simp] theorem State.resetWith_timer (c : Config) : (State.resetWith c).timer = none := rfl
@[simp] theorem State.resetWith_boot (c : Config) : (State.resetWith c).boot = Boot.configurePins := rfl
@[simp] theorem State.resetWith_history (c : Config) : (State.resetWith c).history = [] := rfl
@[simp] theorem State.resetWith_busIn (c : Config) : (State.resetWith c).busIn = none := rfl
@[simp] theorem State.resetWith_strobe (c : Config) : (State.resetWith c).strobe = 0#1 := rfl
@[simp] theorem State.resetWith_due (c : Config) : (State.resetWith c).due = 0 := rfl
@[simp] theorem State.resetWith_draws (c : Config) : (State.resetWith c).draws = 0 := rfl

end Sys2Proof.Machine
end

