-- ==== Sys2Proof/Laws/Ops.lean ====
section
/-!
SUPPORT. For each shared operation, one lemma that says everything it does to the state.
-/

namespace Sys2Proof.Machine

variable (s : State)

/-- Everything `BusClr` does: `OUT`, and one event of the history. -/
theorem busClr_eq (mask : Word) :
    busClr mask s =
      { s with out := s.out &&& ~~~mask
               history := s.history ++ [⟨busWord Op.clr mask 0#32, s.out &&& ~~~mask⟩] } := rfl

/-- Everything `BusPut` does: `OUT`, and one event of the history. -/
theorem busPut_eq (mask value : Word) :
    busPut mask value s =
      { s with out := (s.out &&& ~~~mask) ||| (value &&& mask)
               history := s.history ++
                 [⟨busWord Op.put mask value, (s.out &&& ~~~mask) ||| (value &&& mask)⟩] } := rfl

/-- Everything the timer's posting does. -/
theorem postFiring_eq : postFiring s = { s with firePend := 1#1 } := rfl

/-- A second posting changes nothing (R151). -/
theorem postFiring_postFiring : postFiring (postFiring s) = postFiring s := rfl

/-- Everything interrupt entry does. -/
theorem acceptFiring_eq : acceptFiring s = { s with firePend := 0#1, ph := Ph.read } := rfl

/-- Everything interrupt return does. -/
theorem returnFromFiring_eq : returnFromFiring s = { s with ph := Ph.idle } := rfl

/-- Everything the failure does. -/
theorem raiseRegistrationFailed_eq :
    raiseRegistrationFailed s = { s with regFail := 1#1, boot := .terminated } := rfl

/-- Everything the write of the context cell does. -/
theorem memWriteCtx_eq (v : Word) : memWriteCtx v s = { s with tick := v } := rfl

/-- The context cell reads back what was written (R41). -/
@[simp] theorem memReadCtx_memWriteCtx (v : Word) : memReadCtx (memWriteCtx v s) = v := rfl

/-- Everything the beginning of a delay does. -/
theorem beginDelay_eq : beginDelay s = { s with due := Config.freeDelay s.draws, draws := s.draws + 1 } := rfl

/-! The fields the beginning of a delay leaves alone, and the two it writes. -/

@[simp] theorem beginDelay_cfg : (beginDelay s).cfg = s.cfg := rfl
@[simp] theorem beginDelay_tick : (beginDelay s).tick = s.tick := rfl
@[simp] theorem beginDelay_ph : (beginDelay s).ph = s.ph := rfl
@[simp] theorem beginDelay_tl : (beginDelay s).tl = s.tl := rfl
@[simp] theorem beginDelay_pos : (beginDelay s).pos = s.pos := rfl
@[simp] theorem beginDelay_dval : (beginDelay s).dval = s.dval := rfl
@[simp] theorem beginDelay_vis : (beginDelay s).vis = s.vis := rfl
@[simp] theorem beginDelay_out : (beginDelay s).out = s.out := rfl
@[simp] theorem beginDelay_dir : (beginDelay s).dir = s.dir := rfl
@[simp] theorem beginDelay_inv : (beginDelay s).inv = s.inv := rfl
@[simp] theorem beginDelay_gpio : (beginDelay s).gpio = s.gpio := rfl
@[simp] theorem beginDelay_drive : (beginDelay s).drive = s.drive := rfl
@[simp] theorem beginDelay_regFail : (beginDelay s).regFail = s.regFail := rfl
@[simp] theorem beginDelay_firePend : (beginDelay s).firePend = s.firePend := rfl
@[simp] theorem beginDelay_timer : (beginDelay s).timer = s.timer := rfl
@[simp] theorem beginDelay_boot : (beginDelay s).boot = s.boot := rfl
@[simp] theorem beginDelay_history : (beginDelay s).history = s.history := rfl
@[simp] theorem beginDelay_busIn : (beginDelay s).busIn = s.busIn := rfl
@[simp] theorem beginDelay_strobe : (beginDelay s).strobe = s.strobe := rfl
@[simp] theorem beginDelay_due : (beginDelay s).due = Config.freeDelay s.draws := rfl
@[simp] theorem beginDelay_draws : (beginDelay s).draws = s.draws + 1 := rfl

/-- Everything the sampling of an unregistered timer does. -/
theorem sampleStrobe_unarmed (h : s.timer = none) : sampleStrobe s = { s with strobe := 0#1 } := by
  simp [sampleStrobe, armed, h, State.withStrobe]

/-- Everything the sampling of an armed timer does when its delay has passed. -/
theorem sampleStrobe_due {r : Int} (h : s.timer = some r) (hd : s.due = 0) :
    sampleStrobe s = { s with strobe := 1#1, due := Config.freeDelay s.draws, draws := s.draws + 1 } := by
  simp [sampleStrobe, armed, h, hd, beginDelay, State.withStrobe, State.withDue, State.withDraws]

/-- Everything the sampling of an armed timer does while its delay runs. -/
theorem sampleStrobe_waiting {r : Int} {n : Nat} (h : s.timer = some r) (hd : s.due = n + 1) :
    sampleStrobe s = { s with strobe := 0#1, due := n } := by
  simp [sampleStrobe, armed, h, hd, State.withStrobe, State.withDue]

/-- What the sampling of the strobe writes: the strobe line, the delay and the counter, nothing else. -/
theorem sampleStrobe_frame : ∃ b d n, sampleStrobe s = { s with strobe := b, due := d, draws := n } := by
  unfold sampleStrobe
  split
  · split
    · exact ⟨_, _, _, rfl⟩
    · exact ⟨_, _, _, rfl⟩
  · exact ⟨_, _, _, rfl⟩

/-- What the pin configuration does to the registers a premise reads. -/
theorem configurePins_eq :
    configurePins s =
      { s with gpio := s.gpio ||| busMaskBoth s.cfg
               dir := s.dir ||| busMaskBoth s.cfg
               inv := (s.inv &&& ~~~busMaskBoth s.cfg) ||| (invertBits s.cfg &&& busMaskBoth s.cfg) } := rfl

/-- What boot's first step does: the pins, the drive strength and the place of the main program. -/
theorem bootPins_eq :
    bootPins s =
      { configurePins s with
          drive := Vector.ofFn fun i =>
            if (busMaskBoth s.cfg).getLsbD i.val then Config.driveLevel i.val else s.drive[i]
          boot := .registerTimer } := rfl

end Sys2Proof.Machine
end

