-- ==== Sys2Proof/Laws/Params.lean ====
section
/-!
SUPPORT. The masks, bit by bit, the Digit Multiplexer's ranges, and the Segment Encoder's table, under a
configuration that is this hardware.
-/

namespace Sys2Proof.Machine

variable {c : Config}

/-- The constraints of R6, R27 and R82, as the check means them. -/
structure ThisHardware (c : Config) : Prop where
  digits : c.digitsNum = 8
  rounds : 1 ≤ c.roundPerCount
  period_le : period c ≤ 2 ^ 32
  duration : 1 ≤ c.tickDurationUs
  table_length : c.segTable.length = 10
  table_entries : ∀ v ∈ c.segTable, v < 2 ^ 8
  seg_fits : c.segBase + 8 ≤ 32
  digit_fits : c.digitBase + 8 ≤ 32
  disjoint : segMask c &&& digitMask c = 0#32

theorem thisHardware_of_check (h : paramCheck c = none) : ThisHardware c := by
  unfold paramCheck at h
  split at h <;> rename_i h1
  · cases h
  split at h <;> rename_i h2
  · cases h
  split at h <;> rename_i h3
  · cases h
  split at h <;> rename_i h4
  · cases h
  split at h <;> rename_i h5
  · cases h
  split at h <;> rename_i h6
  · cases h
  split at h <;> rename_i h7
  · cases h
  split at h <;> rename_i h8
  · cases h
  split at h <;> rename_i h9
  · cases h
  exact
    { digits := not_not.mp h1
      rounds := by omega
      period_le := by omega
      duration := by omega
      table_length := not_not.mp h5
      table_entries := by simpa [List.all_eq_true] using h6
      seg_fits := by omega
      digit_fits := by omega
      disjoint := not_not.mp h9 }

theorem check_of_thisHardware (h : ThisHardware c) : paramCheck c = none := by
  have hall : (c.segTable.all fun v => decide (v < 2 ^ 8)) = true := by
    simpa [List.all_eq_true] using h.table_entries
  have h2 := h.rounds
  have h3 := h.period_le
  have h4 := h.duration
  have h7 := h.seg_fits
  have h8 := h.digit_fits
  unfold paramCheck
  rw [if_neg (not_not.mpr h.digits), if_neg (by omega), if_neg (by omega), if_neg (by omega),
    if_neg (not_not.mpr h.table_length), if_neg (not_not.mpr hall), if_neg (by omega), if_neg (by omega),
    if_neg (not_not.mpr h.disjoint)]

/-- `SEG_MASK` is the eight ones from `SEG_BASE` (R7). -/
theorem segMask_getLsbD (h : ThisHardware c) (n : Nat) :
    (segMask c).getLsbD n = (decide (c.segBase ≤ n) && decide (n < c.segBase + 8)) := by
  have hf := h.seg_fits
  have hk : ∀ k, (0xFF#8).getLsbD k = decide (k < 8) := by
    intro k
    by_cases hk : k < 8
    · interval_cases k <;> rfl
    · rw [BitVec.getLsbD_of_ge _ _ (by omega)]; simp [hk]
  simp only [segMask, BitVec.getLsbD_shiftLeft, BitVec.getLsbD_setWidth, hk, BitVec.truncate_eq_setWidth]
  by_cases h1 : c.segBase ≤ n <;> by_cases h2 : n < c.segBase + 8 <;> simp [h1, h2] <;> omega

/-- `DIGIT_MASK` is the eight ones from `DIGIT_BASE` (R7). -/
theorem digitMask_getLsbD (h : ThisHardware c) (n : Nat) :
    (digitMask c).getLsbD n = (decide (c.digitBase ≤ n) && decide (n < c.digitBase + 8)) := by
  have hf := h.digit_fits
  have hk : ∀ k, (BitVec.ofNat 32 (2 ^ c.digitsNum - 1)).getLsbD k = decide (k < 8) := by
    intro k
    rw [h.digits]
    by_cases hk : k < 32
    · interval_cases k <;> rfl
    · rw [BitVec.getLsbD_of_ge _ _ (by omega)]; simp; omega
  simp only [digitMask, BitVec.getLsbD_shiftLeft, hk]
  by_cases h1 : c.digitBase ≤ n <;> by_cases h2 : n < c.digitBase + 8 <;> simp [h1, h2] <;> omega

/-- `DIG_BIT(p)` is the one bit of position `p` (R7). -/
theorem digBit_getLsbD (h : ThisHardware c) {p : Nat} (hp : p < 8) (n : Nat) :
    (digBit c p).getLsbD n = decide (n = c.digitBase + p) := by
  have hf := h.digit_fits
  by_cases hn : n < 32
  · have : (1#32).getLsbD (n - (c.digitBase + p)) = decide (n - (c.digitBase + p) = 0) := by
      rw [BitVec.getLsbD_one]; simp
    simp only [digBit, BitVec.getLsbD_shiftLeft, this]
    by_cases h1 : n < c.digitBase + p
    · simp [h1]; omega
    · by_cases h2 : n = c.digitBase + p
      · simp [h2]; omega
      · simp [h2]; omega
  · rw [BitVec.getLsbD_of_ge _ _ (by omega)]; simp; omega

/-- A pattern's lane, bit by bit: pattern bit k is on pin `SEG_BASE + k` (R66). -/
theorem segLane_getLsbD (h : ThisHardware c) (v : BitVec 8) (n : Nat) :
    (segLane c v).getLsbD n = (decide (c.segBase ≤ n) && v.getLsbD (n - c.segBase)) := by
  have hf := h.seg_fits
  simp only [segLane, BitVec.getLsbD_shiftLeft, BitVec.getLsbD_setWidth, BitVec.truncate_eq_setWidth]
  by_cases h1 : c.segBase ≤ n
  · by_cases h2 : n < c.segBase + 8
    · simp [h1, show n < 32 by omega, show ¬ n < c.segBase by omega, show n - c.segBase < 32 by omega]
    · rw [BitVec.getLsbD_of_ge v _ (by omega)]; simp
  · simp [h1, show n < c.segBase by omega]

/-- The two buses share no pin (R27). -/
theorem bus_ranges_disjoint (h : ThisHardware c) (n : Nat) :
    ¬ ((segMask c).getLsbD n = true ∧ (digitMask c).getLsbD n = true) := by
  intro hh
  have := congrArg (fun v : Word => v.getLsbD n) h.disjoint
  simp [hh.1, hh.2] at this

theorem segMask_and_not_digitMask (h : ThisHardware c) : segMask c &&& ~~~digitMask c = segMask c := by
  apply BitVec.eq_of_getLsbD_eq
  intro n hn
  have := bus_ranges_disjoint h n
  simp only [BitVec.getLsbD_and, BitVec.getLsbD_not, hn, decide_true, Bool.true_and]
  cases hs : (segMask c).getLsbD n <;> cases hd : (digitMask c).getLsbD n <;> simp_all

theorem digitMask_and_not_segMask (h : ThisHardware c) : digitMask c &&& ~~~segMask c = digitMask c := by
  apply BitVec.eq_of_getLsbD_eq
  intro n hn
  have := bus_ranges_disjoint h n
  simp only [BitVec.getLsbD_and, BitVec.getLsbD_not, hn, decide_true, Bool.true_and]
  cases hs : (segMask c).getLsbD n <;> cases hd : (digitMask c).getLsbD n <;> simp_all

/-- A pattern's lane lies inside the segment bus (R66). -/
theorem segLane_and_segMask (h : ThisHardware c) (v : BitVec 8) : segLane c v &&& segMask c = segLane c v := by
  apply BitVec.eq_of_getLsbD_eq
  intro n hn
  rw [BitVec.getLsbD_and, segLane_getLsbD h, segMask_getLsbD h]
  by_cases h2 : n < c.segBase + 8
  · by_cases h1 : c.segBase ≤ n <;> simp [h1, h2]
  · by_cases h1 : c.segBase ≤ n
    · rw [BitVec.getLsbD_of_ge v _ (by omega)]; simp
    · simp [h1]

/-- A digit-select bit lies inside the digit-select bus (R66). -/
theorem digBit_and_digitMask (h : ThisHardware c) {p : Nat} (hp : p < 8) :
    digBit c p &&& digitMask c = digBit c p := by
  apply BitVec.eq_of_getLsbD_eq
  intro n hn
  rw [BitVec.getLsbD_and, digBit_getLsbD h hp, digitMask_getLsbD h]
  by_cases h1 : n = c.digitBase + p
  · subst h1; simp; omega
  · simp [h1]

/-- A masked write replaces the masked bits (R131). -/
theorem putValue_and_mask (mask value out : Word) : putValue mask value out &&& mask = value &&& mask := by
  apply BitVec.eq_of_getLsbD_eq
  intro n hn
  simp only [putValue, BitVec.getLsbD_and, BitVec.getLsbD_or, BitVec.getLsbD_not, hn, decide_true, Bool.true_and]
  cases mask.getLsbD n <;> simp

/-- A masked write keeps the other bits (R131). -/
theorem putValue_and_other {mask other : Word} (h : other &&& ~~~mask = other) (value out : Word) :
    putValue mask value out &&& other = out &&& other := by
  apply BitVec.eq_of_getLsbD_eq
  intro n hn
  have hb := congrArg (fun v : Word => v.getLsbD n) h
  simp only [BitVec.getLsbD_and, BitVec.getLsbD_not, hn, decide_true, Bool.true_and] at hb
  simp only [putValue, BitVec.getLsbD_and, BitVec.getLsbD_or, BitVec.getLsbD_not, hn, decide_true, Bool.true_and]
  cases hm : mask.getLsbD n <;> cases ho : other.getLsbD n <;> simp_all

/-- A clear leaves no masked bit (R130). -/
theorem clrValue_and_mask (mask out : Word) : clrValue mask out &&& mask = 0#32 := by
  apply BitVec.eq_of_getLsbD_eq
  intro n hn
  simp only [clrValue, BitVec.getLsbD_and, BitVec.getLsbD_not, hn, decide_true, Bool.true_and, BitVec.getLsbD_zero]
  cases mask.getLsbD n <;> simp

/-- A clear keeps the other bits (R130). -/
theorem clrValue_and_other {mask other : Word} (h : other &&& ~~~mask = other) (out : Word) :
    clrValue mask out &&& other = out &&& other := by
  apply BitVec.eq_of_getLsbD_eq
  intro n hn
  have hb := congrArg (fun v : Word => v.getLsbD n) h
  simp only [BitVec.getLsbD_and, BitVec.getLsbD_not, hn, decide_true, Bool.true_and] at hb
  simp only [clrValue, BitVec.getLsbD_and, BitVec.getLsbD_not, hn, decide_true, Bool.true_and]
  cases hm : mask.getLsbD n <;> cases ho : other.getLsbD n <;> simp_all

/-- The inversion bits lie inside the two buses (R30). -/
theorem invertBits_and_both (c : Config) : invertBits c &&& busMaskBoth c = invertBits c := by
  apply BitVec.eq_of_getLsbD_eq
  intro n hn
  cases hi : c.invertDig <;> cases hs : (segMask c).getLsbD n <;> cases hd : (digitMask c).getLsbD n <;>
    simp [invertBits, busMaskBoth, hi, hs, hd]

/-! The ranges of the Digit Multiplexer. -/

theorem select_position_lt (h : ThisHardware c) (t : Nat) : (select c t).position < 8 := by
  simp only [select, position, h.digits]
  omega

theorem select_digitValue_lt (c : Config) (t : Nat) : (select c t).digitValue < 10 := by
  simp only [select, digitValue]
  omega

theorem period_eq (h : ThisHardware c) : period c = 8 * c.roundPerCount * 10000 := by
  simp [period, h.digits]

theorem period_pos (h : ThisHardware c) : 0 < period c := by
  have := h.rounds
  rw [period_eq h]
  omega

/-- The next tick is in range (R21, R117). -/
theorem nextTick_lt_period (h : ThisHardware c) (t : Word) : (nextTick c t).toNat < period c := by
  have hp := period_pos h
  have hle := h.period_le
  have hm := Nat.mod_lt (t.toNat + 1) hp
  simp only [nextTick, BitVec.toNat_ofNat]
  exact lt_of_le_of_lt (Nat.mod_le _ _) hm

/-- The next tick's value (R117): no 2^32 overflow. -/
theorem nextTick_toNat (h : ThisHardware c) (t : Word) : (nextTick c t).toNat = (t.toNat + 1) % period c := by
  have hp := period_pos h
  have hle := h.period_le
  have hm := Nat.mod_lt (t.toNat + 1) hp
  simp only [nextTick, BitVec.toNat_ofNat]
  exact Nat.mod_eq_of_lt (by omega)

/-- Every digit has its entry (R80, R82). -/
theorem segEncode_ok (h : ThisHardware c) {d : Nat} (hd : d < 10) :
    segEncode c d = .ok (BitVec.ofNat 8 (c.segTable.getD d 0)) := by
  have hl : d < c.segTable.length := by rw [h.table_length]; exact hd
  have hv := h.table_entries _ (List.getElem_mem hl)
  unfold segEncode
  rw [if_neg (by omega), List.getElem?_eq_getElem hl]
  simp only [if_pos hv]
  simp [List.getD_eq_getElem?_getD, List.getElem?_eq_getElem hl]

end Sys2Proof.Machine
end

