-- ==== Sys2Proof/Laws/Launch.lean ====
section
/-!
SUPPORT. The launch premise: the pin configuration establishes it, and it reads nothing but the configuration and
the pins.
-/

namespace Sys2Proof.Machine

/-- The launch premise reads only the parameters and the pins. -/
theorem launchReady_congr {s t : State} (hc : t.cfg = s.cfg) (hg : t.gpio = s.gpio) (hd : t.dir = s.dir)
    (hi : t.inv = s.inv) : launchReady t = launchReady s := by
  simp only [launchReady, hc, hg, hd, hi]

/-- The pin configuration establishes the launch premise, from any pins (R172). -/
theorem launchReady_configurePins (s : State) : launchReady (configurePins s) = true := by
  have hor : ∀ x m : Word, (x ||| m) &&& m = m := by
    intro x m
    apply BitVec.eq_of_getLsbD_eq
    intro n hn
    cases hx : x.getLsbD n <;> cases hm : m.getLsbD n <;> simp [hx, hm]
  have hinv : ∀ x m b : Word, b &&& m = b → ((x &&& ~~~m) ||| (b &&& m)) &&& m = b := by
    intro x m b hb
    have := putValue_and_mask m b x
    rw [hb] at this
    exact this
  rw [configurePins_eq, launchReady, decide_eq_true_eq]
  exact ⟨hor _ _, hor _ _, hinv _ _ _ (invertBits_and_both s.cfg)⟩

/-- A launched state is ready to perform the word placed in it. -/
theorem launchReady_launched (s : State) : launchReady (launched s) = true :=
  (launchReady_congr (s := configurePins s) (t := launched s) rfl rfl rfl rfl).trans
    (launchReady_configurePins s)

/-- Boot's first step establishes the launch premise. -/
theorem launchReady_bootPins (s : State) : launchReady (bootPins s) = true :=
  (launchReady_congr (s := configurePins s) (t := bootPins s) rfl rfl rfl rfl).trans
    (launchReady_configurePins s)

/-! The fields boot's first step leaves alone, and the place of the main program. -/

@[simp] theorem bootPins_cfg (s : State) : (bootPins s).cfg = s.cfg := rfl
@[simp] theorem bootPins_tick (s : State) : (bootPins s).tick = s.tick := rfl
@[simp] theorem bootPins_ph (s : State) : (bootPins s).ph = s.ph := rfl
@[simp] theorem bootPins_tl (s : State) : (bootPins s).tl = s.tl := rfl
@[simp] theorem bootPins_pos (s : State) : (bootPins s).pos = s.pos := rfl
@[simp] theorem bootPins_dval (s : State) : (bootPins s).dval = s.dval := rfl
@[simp] theorem bootPins_vis (s : State) : (bootPins s).vis = s.vis := rfl
@[simp] theorem bootPins_out (s : State) : (bootPins s).out = s.out := rfl
@[simp] theorem bootPins_regFail (s : State) : (bootPins s).regFail = s.regFail := rfl
@[simp] theorem bootPins_firePend (s : State) : (bootPins s).firePend = s.firePend := rfl
@[simp] theorem bootPins_timer (s : State) : (bootPins s).timer = s.timer := rfl
@[simp] theorem bootPins_history (s : State) : (bootPins s).history = s.history := rfl
@[simp] theorem bootPins_busIn (s : State) : (bootPins s).busIn = s.busIn := rfl
@[simp] theorem bootPins_strobe (s : State) : (bootPins s).strobe = s.strobe := rfl
@[simp] theorem bootPins_due (s : State) : (bootPins s).due = s.due := rfl
@[simp] theorem bootPins_draws (s : State) : (bootPins s).draws = s.draws := rfl
@[simp] theorem bootPins_boot (s : State) : (bootPins s).boot = .registerTimer := rfl

/-! The fields a launch leaves alone, and what it fixes. -/

@[simp] theorem launched_cfg (s : State) : (launched s).cfg = s.cfg := rfl
@[simp] theorem launched_tick (s : State) : (launched s).tick = s.tick := rfl
@[simp] theorem launched_ph (s : State) : (launched s).ph = s.ph := rfl
@[simp] theorem launched_tl (s : State) : (launched s).tl = s.tl := rfl
@[simp] theorem launched_pos (s : State) : (launched s).pos = s.pos := rfl
@[simp] theorem launched_dval (s : State) : (launched s).dval = s.dval := rfl
@[simp] theorem launched_vis (s : State) : (launched s).vis = s.vis := rfl
@[simp] theorem launched_out (s : State) : (launched s).out = s.out := rfl
@[simp] theorem launched_firePend (s : State) : (launched s).firePend = s.firePend := rfl
@[simp] theorem launched_timer (s : State) : (launched s).timer = s.timer := rfl
@[simp] theorem launched_history (s : State) : (launched s).history = s.history := rfl
@[simp] theorem launched_busIn (s : State) : (launched s).busIn = s.busIn := rfl
@[simp] theorem launched_strobe (s : State) : (launched s).strobe = s.strobe := rfl
@[simp] theorem launched_due (s : State) : (launched s).due = s.due := rfl
@[simp] theorem launched_draws (s : State) : (launched s).draws = s.draws := rfl
@[simp] theorem launched_drive (s : State) : (launched s).drive = s.drive := rfl
@[simp] theorem launched_boot (s : State) : (launched s).boot = .mainLoop := rfl
@[simp] theorem launched_regFail (s : State) : (launched s).regFail = 0#1 := rfl

/-- Everything the registration does (R150, R154, R174). -/
theorem bootRegister_eq (s : State) :
    bootRegister s =
      if s.cfg.regOk then
        { s with timer := some (-(s.cfg.tickDurationUs : Int)), due := Config.freeDelay s.draws,
                 draws := s.draws + 1, boot := .mainLoop }
      else { s with regFail := 1#1, boot := .terminated } := by
  unfold bootRegister
  split <;> rfl

end Sys2Proof.Machine
end

