-- ==== Sys2Proof/Laws/Step.lean ====
section
/-!
SUPPORT. What a step can do, said once: the plan of a ready state, the inversion of a step, and the inversion of
each meaning.
-/

namespace Sys2Proof.Machine

variable {s t : State}

/-- A ready state performs what it fetched. -/
theorem plan_of_ready (h : Ready s) : plan s = planFetched s := by
  obtain ⟨h1, h2, h3, h4⟩ := h
  simp [plan, h1, h2, h3, h4]

/-- A step of a ready state that fetched the word of `i`. -/
theorem step_of_ready {i : Instr} (h : Ready s) (hd : decode (fetch s) = .instr i) :
    step s = performed (fetch s) (exec i s) := by
  simp [step, plan_of_ready h, planFetched, hd]

/-- A performed instruction answers a next state exactly when its meaning does. -/
theorem performed_next {w : PlacedWord} {o : Host.Outcome State Fault Refusal} (h : performed w o = .next t) :
    ∃ u, o = .next u ∧ t = retire w u := by
  cases o with
  | next u => cases h; exact ⟨u, rfl, rfl⟩
  | fault r => cases h
  | refused r => cases h

/-- A placed word makes a machine of this hardware ready (log 13). -/
theorem ready_placeWord (hc : paramCheck s.cfg = none) (p : PlacedWord) : Ready (placeWord p s) := by
  have hl : launchReady (placeWord p s) = launchReady (launched s) := by
    cases p <;> exact launchReady_congr (by simp [placeWord]) (by simp [placeWord]) (by simp [placeWord])
      (by simp [placeWord])
  refine ⟨?_, ?_, ?_, hl.trans (launchReady_launched s)⟩
  · cases p <;> simpa [placeWord, launched, configurePins_eq] using hc
  · cases p <;> simp [placeWord, launched]
  · cases p <;> simp [placeWord, launched]

/-- The word of an instruction, once placed, is the word fetched next. -/
theorem fetch_placeWord (i : Instr) (s : State) : fetch (placeWord (encode i) s) = encode i := by
  cases i <;> simp [placeWord, encode, fetch]

/-- The plans that lead to a next state: a ready state performs the word it fetched, or the machine boots. -/
theorem plan_cases (s : State) :
    (∃ i, Ready s ∧ decode (fetch s) = .instr i ∧ plan s = .run (fetch s) i) ∨
    (Ready s ∧ decode (fetch s) = .noRequest ∧ plan s = .quiet s) ∨
    (paramCheck s.cfg = none ∧ s.regFail ≠ 1#1 ∧ s.boot = .configurePins ∧ plan s = .quiet (bootPins s)) ∨
    (paramCheck s.cfg = none ∧ s.regFail ≠ 1#1 ∧ s.boot = .registerTimer ∧ launchReady s = true ∧
      plan s = .quiet (bootRegister s)) ∨
    (∃ r, plan s = .fault r) ∨ (∃ r, plan s = .refuse r) := by
  have hb : ∀ b : BitVec 1, b ≠ 1#1 → b = 0#1 := by decide
  cases hp : paramCheck s.cfg with
  | some p => exact .inr (.inr (.inr (.inr (.inr ⟨_, by simp [plan, hp]; rfl⟩))))
  | none =>
    by_cases hf : s.regFail = 1#1
    · exact .inr (.inr (.inr (.inr (.inl ⟨_, by simp [plan, hp, hf]; rfl⟩))))
    · cases hboot : s.boot with
      | configurePins => exact .inr (.inr (.inl ⟨rfl, hf, rfl, by simp [plan, hp, hf, hboot]⟩))
      | registerTimer =>
        by_cases hl : launchReady s = true
        · exact .inr (.inr (.inr (.inl ⟨rfl, hf, rfl, hl, by simp [plan, hp, hf, hboot, hl]⟩)))
        · exact .inr (.inr (.inr (.inr (.inr ⟨_, by simp [plan, hp, hf, hboot, hl]; rfl⟩))))
      | terminated => exact .inr (.inr (.inr (.inr (.inl ⟨_, by simp [plan, hp, hf, hboot]; rfl⟩))))
      | mainLoop =>
        by_cases hl : launchReady s = true
        · have hr : Ready s := ⟨hp, hb _ hf, hboot, hl⟩
          cases hd : decode (fetch s) with
          | instr i => exact .inl ⟨i, hr, rfl, by rw [plan_of_ready hr, planFetched, hd]⟩
          | noRequest => exact .inr (.inl ⟨hr, rfl, by rw [plan_of_ready hr, planFetched, hd]⟩)
          | illFormed w =>
            exact .inr (.inr (.inr (.inr (.inr ⟨_, by rw [plan_of_ready hr, planFetched, hd]⟩))))
        · exact .inr (.inr (.inr (.inr (.inr ⟨_, by simp [plan, hp, hf, hboot, hl]; rfl⟩))))

/-- A bus word is never a request that is none (R68). -/
theorem decodeBus_ne_noRequest (w : BusWord) : decodeBus w ≠ .noRequest := by
  unfold decodeBus
  repeat' split
  all_goals exact Verdict.noConfusion

/-- The fetched word is never a strobe at level 0. -/
theorem decode_fetch_ne_noRequest (s : State) : decode (fetch s) ≠ .noRequest := by
  cases hb : s.busIn with
  | some w => simpa [fetch, hb, decode] using decodeBus_ne_noRequest w
  | none =>
    by_cases hs : s.strobe = 1#1 <;> simp [fetch, hb, hs, decode, decodeStrobe]

/-- EVERYTHING A STEP CAN DO when it answers a next state: an instruction is performed and its word retired, or
one of the two boot steps is taken. -/
theorem step_next_cases (h : step s = .next t) :
    (∃ i u, Ready s ∧ decode (fetch s) = .instr i ∧ exec i s = .next u ∧ t = retire (fetch s) u) ∨
    (paramCheck s.cfg = none ∧ s.regFail ≠ 1#1 ∧ s.boot = .configurePins ∧ t = bootPins s) ∨
    (paramCheck s.cfg = none ∧ s.regFail ≠ 1#1 ∧ s.boot = .registerTimer ∧ launchReady s = true ∧
      t = bootRegister s) := by
  obtain ⟨i, hr, hd, hp⟩ | ⟨_, hd, _⟩ | ⟨h1, h2, h3, hp⟩ | ⟨h1, h2, h3, h4, hp⟩ | ⟨r, hp⟩ | ⟨r, hp⟩ :=
    plan_cases s
  · left
    rw [step_of_ready hr hd] at h
    obtain ⟨u, he, ht⟩ := performed_next h
    exact ⟨i, u, hr, hd, he, ht⟩
  · exact absurd hd (decode_fetch_ne_noRequest s)
  · rw [step, hp] at h; cases h; exact .inr (.inl ⟨h1, h2, h3, rfl⟩)
  · rw [step, hp] at h; cases h; exact .inr (.inr ⟨h1, h2, h3, h4, rfl⟩)
  · rw [step, hp] at h; cases h
  · rw [step, hp] at h; cases h

/-- Where the word of a performed instruction stood (R69). -/
theorem fetch_instr_cases {i : Instr} (hd : decode (fetch s) = .instr i) :
    (∃ w, s.busIn = some w ∧ fetch s = .bus w ∧ decodeBus w = .instr i) ∨
    (s.busIn = none ∧ s.strobe = 1#1 ∧ fetch s = .strobe 1#1 ∧ i = .fire) ∨
    (s.busIn = none ∧ s.strobe ≠ 1#1 ∧ fetch s = .phase s.ph ∧ i = decodePhase s.ph) := by
  cases hb : s.busIn with
  | some w =>
    have hf : fetch s = .bus w := by simp [fetch, hb]
    rw [hf] at hd
    exact .inl ⟨w, rfl, hf, hd⟩
  | none =>
    by_cases hs : s.strobe = 1#1
    · have hf : fetch s = .strobe 1#1 := by simp [fetch, hb, hs]
      rw [hf] at hd
      exact .inr (.inl ⟨rfl, hs, hf, (decodeStrobe_instr hd).2⟩)
    · have hf : fetch s = .phase s.ph := by simp [fetch, hb, hs]
      rw [hf] at hd
      simp only [decode, Verdict.instr.injEq] at hd
      exact .inr (.inr ⟨rfl, hs, hf, hd.symm⟩)

/-- What retiring a word writes: the channel, the strobe, the delay and the counter, nothing else. -/
theorem retire_frame (w : PlacedWord) (u : State) :
    ∃ b st d n, retire w u = { u with busIn := b, strobe := st, due := d, draws := n } ∧
      (u.busIn = none → b = none) := by
  cases w with
  | bus w => exact ⟨none, u.strobe, u.due, u.draws, rfl, fun _ => rfl⟩
  | strobe b => exact ⟨u.busIn, 0#1, u.due, u.draws, rfl, id⟩
  | phase p =>
    obtain ⟨st, d, n, h⟩ := sampleStrobe_frame u
    exact ⟨u.busIn, st, d, n, h, id⟩

/-! The inversion of each meaning. -/

theorem execIdle_next (h : execIdle s = .next t) :
    (s.regFail = 0#1 ∧ s.firePend = 1#1 ∧ t = acceptFiring s) ∨ t = s := by
  unfold execIdle at h
  split at h <;> cases h
  · rename_i hc; exact .inl ⟨hc.1, hc.2, rfl⟩
  · exact .inr rfl

theorem execSeg_next (h : execSeg s = .next t) :
    (∃ pattern, s.vis = 1#1 ∧ segEncode s.cfg s.dval.toNat = .ok pattern ∧
      t = (busPut (segMask s.cfg) (segLane s.cfg pattern) s).withPh Ph.setdig) ∨
    (s.vis ≠ 1#1 ∧ t = (busClr (segMask s.cfg) s).withPh Ph.setdig) := by
  unfold execSeg at h
  split at h <;> rename_i hv
  · split at h
    · rename_i pattern hp; cases h; exact .inl ⟨pattern, hv, hp, rfl⟩
    · cases h
  · cases h; exact .inr ⟨hv, rfl⟩

theorem execPut_next {mask value : Word} (h : execPut mask value s = .next t) :
    value &&& ~~~mask = 0#32 ∧ t = busPut mask value s := by
  unfold execPut at h
  split at h <;> cases h
  rename_i hw
  exact ⟨hw, rfl⟩

/-- What no instruction writes (R30, R31, and the model's own places): the parameters, the pins' configuration,
the registration, the place of the main program, the channel, the strobe, the counter and the delay. -/
theorem exec_frame {i : Instr} (h : exec i s = .next t) :
    t.cfg = s.cfg ∧ t.dir = s.dir ∧ t.inv = s.inv ∧ t.gpio = s.gpio ∧ t.drive = s.drive ∧
    t.regFail = s.regFail ∧ t.timer = s.timer ∧ t.boot = s.boot ∧ t.busIn = s.busIn ∧
    t.strobe = s.strobe ∧ t.draws = s.draws ∧ t.due = s.due := by
  cases i with
  | idle =>
    obtain ⟨_, _, rfl⟩ | rfl := execIdle_next h
    · exact ⟨rfl, rfl, rfl, rfl, rfl, rfl, rfl, rfl, rfl, rfl, rfl, rfl⟩
    · exact ⟨rfl, rfl, rfl, rfl, rfl, rfl, rfl, rfl, rfl, rfl, rfl, rfl⟩
  | seg =>
    obtain ⟨_, _, _, rfl⟩ | ⟨_, rfl⟩ := execSeg_next h
    · exact ⟨rfl, rfl, rfl, rfl, rfl, rfl, rfl, rfl, rfl, rfl, rfl, rfl⟩
    · exact ⟨rfl, rfl, rfl, rfl, rfl, rfl, rfl, rfl, rfl, rfl, rfl, rfl⟩
  | put mask value =>
    obtain ⟨_, rfl⟩ := execPut_next h
    exact ⟨rfl, rfl, rfl, rfl, rfl, rfl, rfl, rfl, rfl, rfl, rfl, rfl⟩
  | reserved2 mask value => cases h
  | reserved3 mask value => cases h
  | read => cases h; exact ⟨rfl, rfl, rfl, rfl, rfl, rfl, rfl, rfl, rfl, rfl, rfl, rfl⟩
  | compute => cases h; exact ⟨rfl, rfl, rfl, rfl, rfl, rfl, rfl, rfl, rfl, rfl, rfl, rfl⟩
  | clrdig => cases h; exact ⟨rfl, rfl, rfl, rfl, rfl, rfl, rfl, rfl, rfl, rfl, rfl, rfl⟩
  | setdig => cases h; exact ⟨rfl, rfl, rfl, rfl, rfl, rfl, rfl, rfl, rfl, rfl, rfl, rfl⟩
  | advance => cases h; exact ⟨rfl, rfl, rfl, rfl, rfl, rfl, rfl, rfl, rfl, rfl, rfl, rfl⟩
  | ret => cases h; exact ⟨rfl, rfl, rfl, rfl, rfl, rfl, rfl, rfl, rfl, rfl, rfl, rfl⟩
  | clr mask => cases h; exact ⟨rfl, rfl, rfl, rfl, rfl, rfl, rfl, rfl, rfl, rfl, rfl, rfl⟩
  | fire => cases h; exact ⟨rfl, rfl, rfl, rfl, rfl, rfl, rfl, rfl, rfl, rfl, rfl, rfl⟩

end Sys2Proof.Machine
end

