-- ==== Sys2Proof/Laws/Firing.lean ====
section
/-!
SUPPORT. Runs of the sequencer and of the machine: one step of a run, and the digit a COMPUTE latches.
-/

namespace Sys2Proof.Machine

variable {c : Config}

/-- A run performs the phase `PH` names and goes on from the state it answers. -/
theorem runPhases_succ {n : Nat} {s u : State} {i : Instr} (hp : decodePhase s.ph = i) (he : exec i s = .next u) :
    runPhases (n + 1) s = runPhases n u := by
  simp [runPhases, sequencerStep, hp, he]

/-- A run of steps takes its first step and goes on from the state it answers. -/
theorem steps_succ {n : Nat} {s u : State} (h : step s = .next u) : steps (n + 1) s = steps n u := by
  simp [steps, h]

/-- Two runs of steps in a row are one run. -/
theorem steps_add {m n : Nat} {s u : State} (h : steps m s = .next u) : steps (m + n) s = steps n u := by
  induction m generalizing s with
  | zero => cases h; rw [Nat.zero_add]
  | succ m ih =>
    cases hs : step s with
    | next t =>
      rw [steps_succ hs] at h
      rw [Nat.succ_add, steps_succ hs, ih h]
    | fault r => simp [steps, hs] at h
    | refused r => simp [steps, hs] at h

/-- The latched digit value is the selected one: four bits hold it (R98). -/
theorem latched_digitValue_toNat (c : Config) (t : Nat) :
    (BitVec.ofNat 4 (select c t).digitValue).toNat = (select c t).digitValue := by
  have h := select_digitValue_lt c t
  rw [BitVec.toNat_ofNat]
  omega

/-- The latched position is the selected one: three bits hold it (R98). -/
theorem latched_position_toNat (h : ThisHardware c) (t : Nat) :
    (BitVec.ofNat 3 (select c t).position).toNat = (select c t).position := by
  have hp := select_position_lt h t
  rw [BitVec.toNat_ofNat]
  omega

/-- The encoder answers the selected digit's entry, which is the firing's pattern when visible (R80, R182). -/
theorem segEncode_select (h : ThisHardware c) (t : Nat) :
    segEncode c (select c t).digitValue = .ok (BitVec.ofNat 8 (c.segTable.getD (select c t).digitValue 0)) :=
  segEncode_ok h (select_digitValue_lt c t)

/-- A firing's pattern lies inside the segment bus (R66). -/
theorem firePattern_and_segMask (h : ThisHardware c) (r : Selection) :
    firePattern c r &&& segMask c = firePattern c r := by
  unfold firePattern
  split
  · exact segLane_and_segMask h _
  · simp

/-- When the latches hold a selection, the latched pattern is that firing's (R182). -/
theorem latchedPattern_eq_firePattern {s : State} (h : LatchedFrom s s.tl.toNat) :
    latchedPattern s = firePattern s.cfg (select s.cfg s.tl.toNat) := by
  obtain ⟨_, hd, hv⟩ := h
  unfold latchedPattern firePattern
  rw [hv, hd, latched_digitValue_toNat]
  cases (select s.cfg s.tl.toNat).visible <;> simp [visFlag]

end Sys2Proof.Machine
end

