-- ==== Sys2Proof/Laws/PerInstr.lean ====
section
/-!
SUPPORT. The family WordFormat: every instruction's word stands in a place of the format its opcode-table row has
(30_encoding.md R60, R69).
-/

namespace Sys2Proof.Laws.WordFormat

/-- The place the encoder puts an instruction's word in has the instruction's format. -/
def Statement (i : Instr) : Prop := (encode i).format = i.format

theorem idle : Statement .idle := rfl
theorem read : Statement .read := rfl
theorem compute : Statement .compute := rfl
theorem clrdig : Statement .clrdig := rfl
theorem seg : Statement .seg := rfl
theorem setdig : Statement .setdig := rfl
theorem advance : Statement .advance := rfl
theorem ret : Statement .ret := rfl
theorem clr (mask : Word) : Statement (.clr mask) := rfl
theorem put (mask value : Word) : Statement (.put mask value) := rfl
theorem reserved2 (mask value : Word) : Statement (.reserved2 mask value) := rfl
theorem reserved3 (mask value : Word) : Statement (.reserved3 mask value) := rfl
theorem fire : Statement .fire := rfl

end Sys2Proof.Laws.WordFormat
end

