-- ==== Sys2Proof/Tests/Slice0.lean ====
section
/-!
SUPPORT. Tests of single operations and steps against the spec's own vectors (95_test_vectors.md) and encodings,
an ill-formed term for every check, and a named witness for the hypotheses of every statement that has some.
-/

namespace Sys2Proof.Tests

open Sys2Proof Sys2Proof.Machine

/-- A running machine of the reference configuration. -/
def base : State := launched State.reset

/-- The firing at tick 604 of 95_test_vectors.md V3, at a phase and a bus state. -/
def at604 (ph : PhaseCode) (out : Word) : State :=
  { base with ph := ph, tick := 604#32, tl := 604#32, pos := 4#3, dval := 3#4, vis := 1#1, out := out }

/-- The bus placement of the last vector of 95_test_vectors.md 2.3. -/
def otherConfig : Config := { Config.reference with segBase := 16, digitBase := 4 }

/-- A field of the next state, if there is one. -/
def field {α : Type} (o : Host.Outcome State Fault Refusal) (f : State → α) : Option α :=
  match o with
  | .next t => some (f t)
  | .fault _ | .refused _ => none

/-- The refusal, if there is one. -/
def refusal (o : Host.Outcome State Fault Refusal) : Option Refusal :=
  match o with
  | .refused r => some r
  | .next _ | .fault _ => none

/-- The fault, if there is one. -/
def fault (o : Host.Outcome State Fault Refusal) : Option Fault :=
  match o with
  | .fault r => some r
  | .next _ | .refused _ => none

/-! Decoding: one word written out from the spec's encoding for every constructor (R62, R63, R64, R68; V3, 2.3). -/

theorem test_decode_idle : decode (.phase 0b000#3) = .instr .idle := by decide
theorem test_decode_read : decode (.phase 0b001#3) = .instr .read := by decide
theorem test_decode_compute : decode (.phase 0b010#3) = .instr .compute := by decide
theorem test_decode_clrdig : decode (.phase 0b011#3) = .instr .clrdig := by decide
theorem test_decode_seg : decode (.phase 0b100#3) = .instr .seg := by decide
theorem test_decode_setdig : decode (.phase 0b101#3) = .instr .setdig := by decide
theorem test_decode_advance : decode (.phase 0b110#3) = .instr .advance := by decide
theorem test_decode_return : decode (.phase 0b111#3) = .instr .ret := by decide
theorem test_decode_clr : decode (.bus 0x0000FF0000000000#66) = .instr (.clr 0x0000FF00#32) := by decide
theorem test_decode_put :
    decode (.bus 0x1000000FF0000004F#66) = .instr (.put 0x000000FF#32 0x0000004F#32) := by decide
theorem test_decode_reserved2 :
    decode (.bus 0x2000000FF0000004F#66) = .instr (.reserved2 0x000000FF#32 0x0000004F#32) := by decide
theorem test_decode_reserved3 :
    decode (.bus 0x3000000FF0000004F#66) = .instr (.reserved3 0x000000FF#32 0x0000004F#32) := by decide
theorem test_decode_fire : decode (.strobe 0b1#1) = .instr .fire := by decide
theorem test_decode_no_request : decode (.strobe 0b0#1) = .noRequest := by decide

/-- R65, the two refused words of 2.3. -/
theorem test_decode_clr_with_value :
    decode (.bus 0x0000FF0000000001#66) = .illFormed 0x0000FF0000000001#66 := by decide
theorem test_decode_put_outside_mask :
    decode (.bus 0x1000000FF00000100#66) = .illFormed 0x1000000FF00000100#66 := by decide

/-- Opcode-table numbers: a byte is a phase code, one bit a strobe, nine bytes a bus word (log 7). -/
theorem test_table_words :
    decodeTableWord 8 0b111 = some .ret ∧ decodeTableWord 8 8 = none ∧ decodeTableWord 1 1 = some .fire ∧
    decodeTableWord 72 0x1000000FF0000004F = some (.put 0xFF#32 0x4F#32) ∧
    decodeTableWord 72 0x4000000FF0000004F = none := by decide

/-! Well-formedness: an ill-formed term for each check. -/

theorem test_wf_put : (Instr.put 0xFF#32 0x4F#32).wellFormed = true := by decide
theorem test_illFormed_put : (Instr.put 0xFF#32 0x100#32).wellFormed = false := by decide
theorem test_params_reference : paramCheck Config.reference = none ∧ paramCheck otherConfig = none := by decide
theorem test_illFormed_digitsNum :
    paramCheck { Config.reference with digitsNum := 4 } = some .digitsNum := by decide
theorem test_illFormed_roundPerCount :
    paramCheck { Config.reference with roundPerCount := 0 } = some .roundPerCount := by decide
/-- 53687 is the greatest admitted value: 8 * 53687 * 10000 = 4294960000, at most 2^32 = 4294967296. -/
theorem test_illFormed_period :
    paramCheck { Config.reference with roundPerCount := 53687 } = none ∧
    paramCheck { Config.reference with roundPerCount := 53688 } = some .period := by decide
theorem test_illFormed_tickDuration :
    paramCheck { Config.reference with tickDurationUs := 0 } = some .tickDurationUs := by decide
theorem test_illFormed_table :
    paramCheck { Config.reference with segTable := [0x3F] } = some .segTable ∧
    paramCheck { Config.reference with segTable := [256, 0, 0, 0, 0, 0, 0, 0, 0, 0] } = some .segTable := by decide
theorem test_illFormed_bases :
    paramCheck { Config.reference with segBase := 25 } = some .segBase ∧
    paramCheck { Config.reference with digitBase := 25 } = some .digitBase ∧
    paramCheck { Config.reference with digitBase := 7 } = some .busOverlap := by decide

/-! The datapath (V1, V2, 2.1, 2.2, R7). -/

theorem test_masks_reference :
    segMask Config.reference = 0x000000FF#32 ∧ digitMask Config.reference = 0x0000FF00#32 ∧
    period Config.reference = 2000000 := by decide
theorem test_masks_other :
    segMask otherConfig = 0x00FF0000#32 ∧ digitMask otherConfig = 0x00000FF0#32 := by decide
theorem test_select_602 :
    select Config.reference 602 = ⟨2, 0, false⟩ ∧ count Config.reference 602 = 3 := by decide
theorem test_select_247006 : select Config.reference 247006 = ⟨6, 2, true⟩ := by decide
theorem test_select_last : select Config.reference 1999999 = ⟨7, 9, true⟩ := by decide
theorem test_select_largest :
    select Config.reference 4294967295 = ⟨7, 4, false⟩ ∧ count Config.reference 4294967295 = 21474836 := by decide
theorem test_encode :
    segEncode Config.reference 3 = .ok 0x4F#8 ∧ segEncode Config.reference 9 = .ok 0x6F#8 ∧
    segEncode Config.reference 10 = .error (.encodeArgument 10) := by
  exact ⟨rfl, rfl, rfl⟩

/-! One phase each: the firing at 604 (V3) and the vectors of 2.4. -/

theorem test_idle_accepts :
    field (exec .idle { base with firePend := 1#1 }) (fun t => (t.ph, t.firePend)) = some (0b001#3, 0#1) := by decide
theorem test_idle_waits :
    field (exec .idle base) (fun t => (t.ph, t.firePend)) = some (0b000#3, 0#1) ∧
    field (exec .idle { base with firePend := 1#1, regFail := 1#1 }) (fun t => (t.ph, t.firePend)) =
      some (0b000#3, 1#1) := by decide
theorem test_read :
    field (exec .read { base with tick := 604#32 }) (fun t => (t.tl, t.ph)) = some (604#32, 0b010#3) := by decide
theorem test_compute :
    field (exec .compute { base with tl := 604#32 }) (fun t => (t.pos, t.dval, t.vis, t.ph)) =
      some (4#3, 3#4, 1#1, 0b011#3) := by decide
theorem test_clrdig :
    field (exec .clrdig (at604 0b011#3 0x00000800#32)) (fun t => (t.out, t.ph)) = some (0#32, 0b100#3) := by decide
theorem test_seg_show :
    field (exec .seg (at604 0b100#3 0#32)) (fun t => (t.out, t.history)) =
      some (0x0000004F#32, [⟨0x1000000FF0000004F#66, 0x0000004F#32⟩]) := by decide
/-- An invisible digit is blanked (R115); `encode` refuses an argument from 10 (R84). -/
theorem test_seg_blank_and_refusal :
    field (exec .seg { base with vis := 0#1, dval := 3#4, out := 0xA5A500A5#32 }) (fun t => t.out) =
      some 0xA5A50000#32 ∧
    refusal (exec .seg { base with vis := 1#1, dval := 10#4 }) = some (.encodeArgument 10) := by decide
theorem test_setdig :
    field (exec .setdig (at604 0b101#3 0x0000004F#32)) (fun t => (t.out, t.ph)) =
      some (0x0000104F#32, 0b110#3) := by decide
theorem test_advance :
    field (exec .advance (at604 0b110#3 0#32)) (fun t => (t.tick, t.ph)) = some (605#32, 0b111#3) := by decide
theorem test_advance_wraps :
    field (exec .advance { base with tick := 1999999#32 }) (fun t => t.tick) = some 0#32 := by
  decide
theorem test_return : field (exec .ret { base with ph := 0b111#3 }) (fun t => t.ph) = some 0b000#3 := by decide

/-! The bus commands (2.3). -/

theorem test_clr :
    field (exec (.clr 0x0000FF00#32) { base with out := 0x0000104F#32 }) (fun t => t.out) =
      some 0x0000004F#32 := by decide
theorem test_clr_keeps_others :
    field (exec (.clr 0x000000FF#32) { base with out := 0xFFFFFFFF#32 }) (fun t => t.out) =
      some 0xFFFFFF00#32 := by decide
theorem test_put_replaces :
    field (exec (.put 0x000000FF#32 0x0000004F#32) { base with out := 0x000000FF#32 }) (fun t => t.out) =
      some 0x0000004F#32 := by decide
theorem test_put_keeps_others_and_refusal :
    field (exec (.put 0x000000FF#32 0x0000003F#32) { base with out := 0xA5A500A5#32 }) (fun t => t.out) =
      some 0xA5A5003F#32 ∧
    refusal (exec (.put 0xFF#32 0x100#32) base) = some (.illFormedBusWord 0x1000000FF00000100#66) := by decide
theorem test_reserved2 :
    refusal (exec (.reserved2 0#32 0#32) base) = some (.reservedBusOp 0x20000000000000000#66) := by decide
theorem test_reserved3 :
    refusal (exec (.reserved3 0#32 0#32) base) = some (.reservedBusOp 0x30000000000000000#66) := by decide

/-! The strobe (2.4), and one step of the machine. -/

theorem test_fire_waits :
    field (exec .fire { base with ph := 0b100#3 }) (fun t => (t.firePend, t.ph)) = some (1#1, 0b100#3) := by decide
theorem test_fire_absorbed :
    field (exec .fire { base with ph := 0b100#3, firePend := 1#1 }) (fun t => t.firePend) = some 1#1 := by decide
theorem test_step_runs_channel_first :
    field (step { base with busIn := some 0x1000000FF0000004F#66, strobe := 1#1 })
      (fun t => (t.out, t.busIn, t.strobe, t.firePend)) = some (0x4F#32, none, 1#1, 0#1) := by decide
theorem test_step_runs_strobe :
    field (step { base with strobe := 1#1, ph := 0b011#3 }) (fun t => (t.firePend, t.ph, t.strobe)) =
      some (1#1, 0b011#3, 0#1) := by decide
/-- An armed timer whose delay has passed raises the strobe after a phase, one that waits counts down, and a
performed strobe falls whatever the delay (R153, R184). -/
theorem test_armed_timer :
    field (step { base with timer := some (-1), due := 0, ph := 0b001#3 }) (fun t => t.strobe) = some 1#1 ∧
    field (step { base with timer := some (-1), due := 3, ph := 0b001#3 }) (fun t => (t.strobe, t.due)) =
      some (0#1, 2) ∧
    field (step { base with timer := some (-1), due := 0, strobe := 1#1 }) (fun t => (t.strobe, t.due)) =
      some (0#1, 0) := by decide
theorem test_step_refuses_ill_formed :
    refusal (step { base with busIn := some 0x0000FF0000000001#66 }) =
      some (.illFormedBusWord 0x0000FF0000000001#66) := by decide
theorem test_step_refuses_config :
    refusal (step { base with cfg := { Config.reference with digitsNum := 4 } }) =
      some (.configNotThisHardware .digitsNum) := by decide
theorem test_boot_pins :
    field (step State.reset) (fun t => (t.dir, t.inv, t.boot)) =
      some (0x0000FFFF#32, 0x000000FF#32, .registerTimer) := by decide
/-- P6: `REG_FAIL = 1`, `TICK = 0`, `PH = IDLE`, `FIRE_PEND = 0`, and no further step. -/
theorem test_registration_failure :
    field (step { base with boot := .registerTimer, cfg := { Config.reference with regOk := false } })
      (fun t => (t.regFail, t.tick, t.ph, t.firePend)) = some (1#1, 0#32, 0b000#3, 0#1) := by decide
theorem test_failed_faults :
    fault (step { base with regFail := 1#1, boot := .terminated }) = some .registrationFailed := by decide
/-- A placed table word is the first instruction after reset. -/
theorem test_first_instruction :
    field (step (State.reset.withFetchWord 8 0b001)) (fun t => t.ph) = some 0b010#3 ∧
    field (step (State.reset.withFetchWord 72 0x1000000FF0000004F)) (fun t => t.out) = some 0x4F#32 ∧
    field (step (State.reset.withFetchWord 1 1)) (fun t => t.firePend) = some 1#1 := by decide

/-! The other bus placement (2.3): the three bus states of the firing at 604 from `OUT = 0xFFFFFFFF`; and the
firings at 604 (V3) and at the end of the period (P3) as R119's function. -/

theorem test_fireWhole_other :
    fireWhole otherConfig 604#32 0xFFFFFFFF#32 = ⟨605#32, 0xFFFFF00F#32, 0xFF4FF00F#32, 0xFF4FF10F#32⟩ := by decide
theorem test_fireWords_other :
    fireWords otherConfig 604#32 =
      [0x000000FF000000000#66, 0x100FF0000004F0000#66, 0x100000FF000000100#66] := by decide
theorem test_fireWhole_wraps :
    fireWhole Config.reference 1999999#32 0x0000406F#32 = ⟨0#32, 0x6F#32, 0x6F#32, 0x806F#32⟩ := by decide

/-! Witnesses: a concrete state and operands that meet the hypotheses of each statement that has some. -/

theorem witness_Ready : Ready base := by unfold Ready; decide

theorem witness_Ready_interface :
    Ready { base with ph := 0b100#3, strobe := 1#1 } ∧ Ready { base with busIn := some 0x0000FF0000000000#66 } := by
  unfold Ready; decide

/-- DecodeOfEncode, EncodeOfDecode. -/
theorem witness_encoding :
    (Instr.put 0xFF#32 0x4F#32).wellFormed = true ∧ decode (.phase 0b111#3) = .instr .ret := by decide

/-- BusWordWellFormedness: each clause, at a boundary; and a phase that appends an event. -/
theorem witness_BusWordWellFormedness :
    (0x1#32 ≠ 0#32 ∧ 0xFF#32 &&& ~~~0xFF#32 = 0#32 ∧ 0x100#32 &&& ~~~0xFF#32 ≠ 0#32) ∧
    ∃ t e, Instr.clrdig.isPhase = true ∧ paramCheck base.cfg = none ∧ exec .clrdig base = .next t ∧
      t.history = base.history ++ [e] :=
  ⟨by decide, _, _, by decide, by decide, rfl, rfl⟩

/-- ReservedAndIllFormedWordsAreRefused: each clause. -/
theorem witness_ReservedAndIllFormed :
    (Ready { base with busIn := some 0x20000000000000000#66 } ∧ busOp 0x20000000000000000#66 = 0b10#2) ∧
    (Ready { base with busIn := some 0x30000000000000000#66 } ∧ busOp 0x30000000000000000#66 = 0b11#2) ∧
    (Ready { base with busIn := some 0x0000FF0000000001#66 } ∧
      busOp 0x0000FF0000000001#66 = 0b00#2 ∧ busValue 0x0000FF0000000001#66 ≠ 0#32) ∧
    (Ready { base with busIn := some 0x1000000FF00000100#66 } ∧
      busOp 0x1000000FF00000100#66 = 0b01#2 ∧
      busValue 0x1000000FF00000100#66 &&& ~~~busMask 0x1000000FF00000100#66 ≠ 0#32) := by
  unfold Ready
  decide

/-- StepRunsTheDecodedInstruction: a word in each place, and both kinds of timer. -/
theorem witness_StepRuns :
    (Ready base ∧ decode (fetch base) = .instr .idle) ∧
    (base.busIn = none ∧ base.strobe = 0#1 ∧ base.timer = none) ∧
    ({ base with strobe := 1#1 } : State).strobe = 1#1 ∧
    ({ base with busIn := some 1#66 } : State).busIn = some 1#66 ∧
    ({ base with timer := some (-1) } : State).timer = some (-1) ∧ ({ base with due := 3 } : State).due = 2 + 1 ∧
    base.due = 0 :=
  ⟨⟨witness_Ready, by decide⟩, by decide, rfl, rfl, rfl, rfl, rfl⟩

/-- PlacedWordRunsNext, the phase statements, and every other statement over a configuration of this hardware. -/
theorem witness_config : paramCheck State.reset.cfg = none ∧ Instr.fire.wellFormed = true := by decide

/-- IdleAcceptsAPendingFiring and InterruptEntryAndReturn: both clauses of IDLE, and the phases after it. -/
theorem witness_Idle :
    (({ base with firePend := 1#1 } : State).regFail = 0#1 ∧ ({ base with firePend := 1#1 } : State).firePend = 1#1 ∧
      ({ base with firePend := 1#1 } : State).ph = 0b000#3) ∧
    ¬ (base.regFail = 0#1 ∧ base.firePend = 1#1) := by decide

theorem witness_phase_in_progress :
    ∃ t, (at604 0b101#3 0#32).ph ≠ 0b000#3 ∧ (at604 0b101#3 0#32).ph ≠ 0b111#3 ∧
      exec (decodePhase (at604 0b101#3 0#32).ph) (at604 0b101#3 0#32) = .next t :=
  ⟨_, by decide, by decide, rfl⟩

/-- SegWritesOrBlanksTheSegmentBus and BusPhasesIssueTheirPseudoOperations: the last digit shown, and a blank. -/
theorem witness_Seg :
    (paramCheck base.cfg = none ∧ ({ base with vis := 1#1, dval := 9#4 } : State).vis = 1#1 ∧
      ({ base with vis := 1#1, dval := 9#4 } : State).dval.toNat < 10) ∧ base.vis = 0#1 := by decide

/-- AdvanceMovesTheTick: the wrap. -/
theorem witness_Advance :
    ({ base with tick := 1999999#32 } : State).tick.toNat + 1 =
      base.cfg.digitsNum * base.cfg.roundPerCount * 10000 ∧ base.tl = base.tick := by decide

/-- PutWritesTheMaskedPins, ClrClearsTheMaskedPins, BusCommandsAreIdempotent, and the `PUT` term of
ReservedAndIllFormedWordsAreRefused: each clause. -/
theorem witness_Put :
    0x80#32 &&& ~~~0xFF#32 = 0#32 ∧ 0#32 &&& ~~~0xFF#32 = 0#32 ∧ 0x100#32 &&& ~~~0xFF#32 ≠ 0#32 := by decide

/-- FiringsDoNotOverlap: a strobe in mid-firing, and a firing taken. -/
theorem witness_NoOverlap :
    (Ready { base with ph := 0b100#3, strobe := 1#1 } ∧ ({ base with ph := 0b100#3, strobe := 1#1 } : State).busIn = none) ∧
    ∃ t, step { base with firePend := 1#1 } = .next t ∧ t.firePend = 0#1 :=
  ⟨⟨witness_Ready_interface.1, rfl⟩, _, rfl, rfl⟩

/-- EncodeIsTheTable, VisibilityGroups, SelectRanges, CountDwellsOnAlignedBlocks,
EveryPositionIsVisitedEquallyOften: boundary operands of each clause. -/
theorem witness_datapath :
    9 < 10 ∧ 10 ≤ 10 ∧ 3 < 4 ∧ (4 ≤ 4 ∧ 7 < 8) ∧ 1999999 < period Config.reference ∧
    199 < 8 * Config.reference.roundPerCount ∧ 199 % (8 * Config.reference.roundPerCount) ≠ 0 := by decide

/-- SelectFollowsTheRules: a tick for each place. -/
theorem witness_places : 0 % 8 % 4 = 0 ∧ 5 % 8 % 4 = 1 ∧ 2 % 8 % 4 = 2 ∧ 7 % 8 % 4 = 3 := by decide

/-- BootConfiguresPinsThenRegisters. -/
theorem witness_Boot :
    paramCheck State.reset.cfg = none ∧ State.reset.regFail = 0#1 ∧ State.reset.boot = .configurePins ∧
    State.reset.cfg.regOk = true := by decide

/-- RegistrationFailureIsFatal: a machine about to fail, and one that has failed. -/
theorem witness_RegistrationFailure :
    (let s : State := { base with boot := .registerTimer, cfg := { Config.reference with regOk := false } }
     paramCheck s.cfg = none ∧ s.regFail = 0#1 ∧ s.boot = .registerTimer ∧ launchReady s = true ∧
       s.cfg.regOk = false) ∧
    ({ base with regFail := 1#1 } : State).regFail = 1#1 := by decide

/-- OnlyThisHardwareRuns has no hypothesis; both of its cases occur. -/
theorem witness_OnlyThisHardware :
    paramCheck Config.reference = none ∧ paramCheck { Config.reference with digitBase := 7 } ≠ none := by decide

/-- LaunchWithoutPinsIsRefused: both stages. -/
theorem witness_Launch :
    launchReady { base with dir := 0#32, boot := .registerTimer } = false ∧
    launchReady { base with dir := 0#32 } = false ∧ base.boot = .mainLoop ∧ base.regFail = 0#1 ∧
    paramCheck base.cfg = none := by decide

/-- PadsAreInvertedOnce: both polarities of the digit-select pads. -/
theorem witness_Pads :
    launchReady base = true ∧ base.cfg.invertDig = false ∧
    (let s := launched (State.resetWith { Config.reference with invertDig := true })
     paramCheck s.cfg = none ∧ launchReady s = true ∧ s.cfg.invertDig = true) := by decide

/-- RunningConfigurationIsReadOnly, EachRegisterHasItsWriter, PhasesFollowTheirOrder: a step of a running machine
that writes, one of each register. -/
theorem witness_steps :
    base.boot = .mainLoop ∧
    (∃ t, step { base with ph := 0b110#3 } = .next t ∧ t.tick ≠ base.tick) ∧
    (∃ t, step { base with ph := 0b001#3, tick := 1#32 } = .next t ∧ t.tl ≠ base.tl) ∧
    (∃ t, step { base with ph := 0b010#3 } = .next t ∧ t.vis ≠ base.vis) ∧
    (∃ t, step { base with ph := 0b101#3 } = .next t ∧ t.out ≠ base.out) ∧
    (∃ t, step { base with firePend := 1#1 } = .next t ∧ t.ph ≠ Ph.idle) :=
  ⟨rfl, ⟨_, rfl, by decide⟩, ⟨_, rfl, by decide⟩, ⟨_, rfl, by decide⟩, ⟨_, rfl, by decide⟩, ⟨_, rfl, by decide⟩⟩

/-- HistoryRecordsEveryCommand, BlockChangesOnlyItsPins: a phase that issues a command and one that issues none. -/
theorem witness_history :
    Instr.setdig.isPhase = true ∧ (∃ t e, exec .setdig base = .next t ∧ t.history = base.history ++ [e]) ∧
    (∃ t, exec .read base = .next t) :=
  ⟨by decide, ⟨_, _, rfl, rfl⟩, ⟨_, rfl⟩⟩

/-- CommandsRecordTheirWords: each clause, with both values of `VIS`. -/
theorem witness_CommandsRecordTheirWords :
    (∃ t, exec (.clr 0#32) base = .next t) ∧ (∃ t, exec (.put 0xFF#32 0xFF#32) base = .next t) ∧
    (∃ t, exec .clrdig base = .next t) ∧ (base.vis = 0#1 ∧ ∃ t, exec .seg base = .next t) ∧
    ((at604 0b100#3 0#32).vis = 1#1 ∧ ∃ t, exec .seg (at604 0b100#3 0#32) = .next t) ∧
    (∃ t, exec .setdig base = .next t) :=
  ⟨⟨_, rfl⟩, ⟨_, rfl⟩, ⟨_, rfl⟩, ⟨rfl, _, rfl⟩, ⟨rfl, _, rfl⟩, ⟨_, rfl⟩⟩

/-- EncodeIsTheTable: SEG at the first argument that is no digit. -/
theorem witness_EncodeRefusal :
    ({ base with vis := 1#1, dval := 10#4 } : State).vis = 1#1 ∧
    ({ base with vis := 1#1, dval := 10#4 } : State).dval.toNat = 10 := by decide

/-- FirePostsAPendingFiring: a firing already pending. -/
theorem witness_Fire : ({ base with firePend := 1#1 } : State).firePend = 1#1 := by decide

/-- FiringRefinesFire, FiringIssuesExactlyThreeCommands, EachFiringIsGhostFree, TickCountsFirings. -/
theorem witness_firing :
    paramCheck base.cfg = none ∧ base.regFail = 0#1 ∧ base.ph = Ph.idle ∧ base.tick.toNat < period base.cfg := by
  decide

/-- WrapIsConsistent. -/
theorem witness_Wrap :
    let s : State := { base with tick := 1999999#32 }
    paramCheck s.cfg = none ∧ s.regFail = 0#1 ∧ s.ph = Ph.idle ∧ s.tick.toNat = period s.cfg - 1 := by decide

/-- StepKeepsBlockInv: the invariant in mid-firing, with a step. -/
theorem witness_BlockInv : BlockInv (at604 0b100#3 0#32) ∧ ∃ t, step (at604 0b100#3 0#32) = .next t :=
  ⟨by unfold BlockInv LatchedFrom; decide, _, rfl⟩

/-- StepKeepsBootInv: the invariant on a running machine with its timer registered, and before, with a step. -/
theorem witness_BootInv :
    BootInv { base with timer := some (-1) } ∧ (∃ t, step { base with timer := some (-1) } = .next t) ∧
    BootInv State.reset ∧ ∃ t, step State.reset = .next t :=
  ⟨by unfold BootInv; decide, ⟨_, rfl⟩, by unfold BootInv; decide, ⟨_, rfl⟩⟩

/-- StepKeepsGhostInv: the invariant once the segment bus is written, with a step. -/
theorem witness_GhostInv :
    GhostInv (at604 0b101#3 0x0000004F#32) ∧ ∃ t, step (at604 0b101#3 0x0000004F#32) = .next t :=
  ⟨⟨by unfold BlockInv LatchedFrom; decide, by decide, by decide, by decide, by decide,
    fun e he => absurd he List.not_mem_nil⟩, _, rfl⟩

/-- NoRunTimeException: a machine in mid-firing with a well-formed word in its channel. -/
theorem witness_NoRunTimeException :
    Ready { at604 0b100#3 0#32 with busIn := some (busWord 0b01#2 0xFF#32 0x4F#32) } ∧
    BlockInv { at604 0b100#3 0#32 with busIn := some (busWord 0b01#2 0xFF#32 0x4F#32) } ∧
    0x4F#32 &&& ~~~0xFF#32 = 0#32 :=
  ⟨by unfold Ready; decide, by unfold BlockInv LatchedFrom; decide, by decide⟩

/-- PostingsRecur, FiringsNeverEnd: the reset state, before boot, and a running machine with a word in its channel. -/
theorem witness_Fairness :
    (BlockInv State.reset ∧ BootInv State.reset ∧ NoWordToRefuse State.reset ∧ State.reset.regFail = 0#1 ∧
      State.reset.cfg.regOk = true) ∧
    (let s : State := { at604 0b100#3 0#32 with timer := some (-1), busIn := some (busWord 0b00#2 0xFF#32 0#32) }
     BlockInv s ∧ BootInv s ∧ NoWordToRefuse s ∧ s.regFail = 0#1 ∧ s.cfg.regOk = true) :=
  ⟨⟨by unfold BlockInv LatchedFrom; decide, by unfold BootInv; decide, (by intro _ h; cases h), rfl, rfl⟩,
    by unfold BlockInv LatchedFrom; decide, by unfold BootInv; decide,
    fun _ h => .inl ⟨0xFF#32, (Option.some.inj h).symm⟩, rfl, rfl⟩

/-- PostedFiringIsAccepted: the longest wait, a firing posted at READ with the strobe raised and a word in the
channel. -/
theorem witness_PostedFiring :
    let s : State := { at604 0b001#3 0#32 with
      firePend := 1#1, strobe := 1#1, busIn := some (busWord 0b01#2 0xFF#32 0x4F#32) }
    Ready s ∧ BlockInv s ∧ NoWordToRefuse s ∧ s.firePend = 1#1 :=
  ⟨by unfold Ready; decide, by unfold BlockInv LatchedFrom; decide,
    fun _ h => .inr ⟨0xFF#32, 0x4F#32, by decide, (Option.some.inj h).symm⟩, rfl⟩

end Sys2Proof.Tests
end

section
/-!
PROOFS. Which configurations run (00_scope.md R6, 10_state.md R27, 40_segment_encoder.md R82): the check passes
exactly the constraints as the rules write them, and a configuration that fails one is refused at every step.
-/

namespace Sys2Proof.Machine

variable {c : Config} {s : State}

/-- The two buses are on separate pins (R27). -/
def BusesApart (c : Config) : Prop :=
  c.segBase + 8 ≤ c.digitBase ∨ c.digitBase + 8 ≤ c.segBase

/-- The constraints of R6, R27 and R82 on the parameters themselves: the period written out, the two buses as pin
ranges and not as masks. -/
def MeetsConstraints (c : Config) : Prop :=
  c.digitsNum = 8 ∧ 1 ≤ c.roundPerCount ∧ 8 * c.roundPerCount * 10000 ≤ 2 ^ 32 ∧
    1 ≤ c.tickDurationUs ∧ c.segTable.length = 10 ∧ (∀ v ∈ c.segTable, v < 2 ^ 8) ∧
    c.segBase + 8 ≤ 32 ∧ c.digitBase + 8 ≤ 32 ∧ BusesApart c

/-- Every pin of `SEG_MASK` is one of the eight from `SEG_BASE`, whatever the configuration. -/
theorem segMask_pin_bounds {n : Nat} (h : (segMask c).getLsbD n = true) :
    c.segBase ≤ n ∧ n < c.segBase + 8 := by
  simp only [segMask, BitVec.getLsbD_shiftLeft, BitVec.truncate_eq_setWidth, BitVec.getLsbD_setWidth,
    Bool.and_eq_true, Bool.not_eq_true', decide_eq_true_eq, decide_eq_false_iff_not] at h
  obtain ⟨⟨-, hlow⟩, -, hbit⟩ := h
  have hhigh := BitVec.lt_of_getLsbD hbit
  omega

/-- Every pin of `DIGIT_MASK` is one of the eight from `DIGIT_BASE`, for 8 digits and any base. -/
theorem digitMask_pin_bounds (hdigits : c.digitsNum = 8) {n : Nat} (h : (digitMask c).getLsbD n = true) :
    c.digitBase ≤ n ∧ n < c.digitBase + 8 := by
  have hones : BitVec.ofNat 32 (2 ^ 8 - 1) = (0xFF#8).setWidth 32 := rfl
  simp only [digitMask, hdigits, hones, BitVec.getLsbD_shiftLeft, BitVec.getLsbD_setWidth,
    Bool.and_eq_true, Bool.not_eq_true', decide_eq_true_eq, decide_eq_false_iff_not] at h
  obtain ⟨⟨-, hlow⟩, -, hbit⟩ := h
  have hhigh := BitVec.lt_of_getLsbD hbit
  omega

/-- Buses on separate pins have masks with no pin in common. -/
theorem masks_disjoint_of_busesApart (hdigits : c.digitsNum = 8) (hapart : BusesApart c) :
    segMask c &&& digitMask c = 0#32 := by
  apply BitVec.eq_of_getLsbD_eq
  intro n _
  rw [BitVec.getLsbD_and, BitVec.getLsbD_zero, Bool.and_eq_false_iff]
  by_contra hboth
  simp only [not_or, Bool.not_eq_false] at hboth
  obtain ⟨hseg, hdigit⟩ := hboth
  have hs := segMask_pin_bounds hseg
  have hd := digitMask_pin_bounds hdigits hdigit
  rcases hapart with h | h <;> omega

/-- The buses of this hardware are on separate pins: otherwise the larger of the two bases is a pin of both. -/
theorem ThisHardware.busesApart (h : ThisHardware c) : BusesApart c := by
  by_contra hover
  simp only [BusesApart, not_or, not_le] at hover
  obtain ⟨h1, h2⟩ := hover
  apply bus_ranges_disjoint h (max c.segBase c.digitBase)
  rw [segMask_getLsbD h, digitMask_getLsbD h]
  simp only [Bool.and_eq_true, decide_eq_true_eq]
  omega

theorem ThisHardware.meetsConstraints (h : ThisHardware c) : MeetsConstraints c :=
  ⟨h.digits, h.rounds, period_eq h ▸ h.period_le, h.duration, h.table_length, h.table_entries, h.seg_fits,
    h.digit_fits, h.busesApart⟩

theorem MeetsConstraints.thisHardware (h : MeetsConstraints c) : ThisHardware c := by
  obtain ⟨hdigits, hrounds, hperiod, hduration, hlength, hentries, hseg, hdigit, hapart⟩ := h
  exact
    { digits := hdigits
      rounds := hrounds
      period_le := by rwa [period, hdigits]
      duration := hduration
      table_length := hlength
      table_entries := hentries
      seg_fits := hseg
      digit_fits := hdigit
      disjoint := masks_disjoint_of_busesApart hdigits hapart }

/-- The check passes exactly the configurations of the rules. -/
theorem paramCheck_eq_none_iff : paramCheck c = none ↔ MeetsConstraints c :=
  ⟨fun h => (thisHardware_of_check h).meetsConstraints, fun h => check_of_thisHardware h.thisHardware⟩

/-- A failed check is the step's refusal, under the parameter the check names (R156). -/
theorem step_of_paramCheck_some {p : Param} (h : paramCheck s.cfg = some p) :
    step s = .refused (.configNotThisHardware p) := by
  have hplan : plan s = .refuse (.configNotThisHardware p) := by
    unfold plan
    rw [h]
  rw [step, hplan]

/-- Settles O34: the check is the rules' constraints (`paramCheck_eq_none_iff`), and where it fails the step is
refused before anything else of the state is read. -/
theorem onlyThisHardwareRuns : Obligations.OnlyThisHardwareRuns := by
  intro s
  cases hp : paramCheck s.cfg with
  | none => exact .inl ⟨paramCheck_eq_none_iff.mp hp, rfl⟩
  | some p =>
    have hfails : ¬ MeetsConstraints s.cfg := by
      rw [← paramCheck_eq_none_iff, hp]
      exact Option.some_ne_none p
    exact .inr ⟨hfails, p, step_of_paramCheck_some hp⟩

end Sys2Proof.Machine
end

section
/-!
PROOFS. The state over a step (10_state.md): every next state written out by the word that led to it, who writes
which register (R20, R24, R25, R26), the order of the phases (R23), what a running machine never changes (R30, R31),
and the invariant of the block (R21, R24, R113, R117).
-/

namespace Sys2Proof.Machine

variable {s t u : State}

/-! The fields the sampling of the strobe leaves alone. -/

@[simp] theorem sampleStrobe_cfg (s : State) : (sampleStrobe s).cfg = s.cfg := by
  obtain ⟨_, _, _, h⟩ := sampleStrobe_frame s; rw [h]
@[simp] theorem sampleStrobe_tick (s : State) : (sampleStrobe s).tick = s.tick := by
  obtain ⟨_, _, _, h⟩ := sampleStrobe_frame s; rw [h]
@[simp] theorem sampleStrobe_ph (s : State) : (sampleStrobe s).ph = s.ph := by
  obtain ⟨_, _, _, h⟩ := sampleStrobe_frame s; rw [h]
@[simp] theorem sampleStrobe_tl (s : State) : (sampleStrobe s).tl = s.tl := by
  obtain ⟨_, _, _, h⟩ := sampleStrobe_frame s; rw [h]
@[simp] theorem sampleStrobe_pos (s : State) : (sampleStrobe s).pos = s.pos := by
  obtain ⟨_, _, _, h⟩ := sampleStrobe_frame s; rw [h]
@[simp] theorem sampleStrobe_dval (s : State) : (sampleStrobe s).dval = s.dval := by
  obtain ⟨_, _, _, h⟩ := sampleStrobe_frame s; rw [h]
@[simp] theorem sampleStrobe_vis (s : State) : (sampleStrobe s).vis = s.vis := by
  obtain ⟨_, _, _, h⟩ := sampleStrobe_frame s; rw [h]
@[simp] theorem sampleStrobe_out (s : State) : (sampleStrobe s).out = s.out := by
  obtain ⟨_, _, _, h⟩ := sampleStrobe_frame s; rw [h]
@[simp] theorem sampleStrobe_firePend (s : State) : (sampleStrobe s).firePend = s.firePend := by
  obtain ⟨_, _, _, h⟩ := sampleStrobe_frame s; rw [h]

/-! What a phase and a step lead to, one constructor per case. -/

/-- The next states of the phase `PH` names, before its word is retired (R111 to R118). -/
inductive PhaseTo (s : State) : State → Prop where
  | wait (hph : s.ph = Ph.idle) : PhaseTo s s
  | accept (hph : s.ph = Ph.idle) (hfail : s.regFail = 0#1) (hpend : s.firePend = 1#1) :
      PhaseTo s (acceptFiring s)
  | read (hph : s.ph = Ph.read) : PhaseTo s ((s.withTl s.tick).withPh Ph.compute)
  | compute (hph : s.ph = Ph.compute) :
      PhaseTo s ((s.withSelection (BitVec.ofNat 3 (select s.cfg s.tl.toNat).position)
        (BitVec.ofNat 4 (select s.cfg s.tl.toNat).digitValue)
        (visFlag (select s.cfg s.tl.toNat).visible)).withPh Ph.clrdig)
  | clrdig (hph : s.ph = Ph.clrdig) : PhaseTo s ((busClr (digitMask s.cfg) s).withPh Ph.seg)
  | segShown (hph : s.ph = Ph.seg) (hvis : s.vis = 1#1) (pattern : BitVec 8)
      (henc : segEncode s.cfg s.dval.toNat = .ok pattern) :
      PhaseTo s ((busPut (segMask s.cfg) (segLane s.cfg pattern) s).withPh Ph.setdig)
  | segBlanked (hph : s.ph = Ph.seg) (hvis : s.vis ≠ 1#1) :
      PhaseTo s ((busClr (segMask s.cfg) s).withPh Ph.setdig)
  | setdig (hph : s.ph = Ph.setdig) :
      PhaseTo s ((busPut (digitMask s.cfg) (digBit s.cfg s.pos.toNat) s).withPh Ph.advance)
  | advance (hph : s.ph = Ph.advance) : PhaseTo s ((s.withTick (nextTick s.cfg s.tick)).withPh Ph.ret)
  | ret (hph : s.ph = Ph.ret) : PhaseTo s (returnFromFiring s)

/-- The next states of a step: a phase performed, a word of the channel, the strobe, or boot. -/
inductive StepTo (s : State) : State → Prop where
  | phase (hr : Ready s) (hf : fetch s = .phase s.ph) {u : State} (hp : PhaseTo s u) : StepTo s (sampleStrobe u)
  | clr (hr : Ready s) {w : BusWord} (hf : fetch s = .bus w) (hop : busOp w = Op.clr) :
      StepTo s ((busClr (busMask w) s).withBusIn none)
  | put (hr : Ready s) {w : BusWord} (hf : fetch s = .bus w) (hop : busOp w = Op.put) :
      StepTo s ((busPut (busMask w) (busValue w) s).withBusIn none)
  | strobe (hr : Ready s) (hf : fetch s = .strobe 1#1) : StepTo s ((postFiring s).withStrobe 0#1)
  | pins (hboot : s.boot = .configurePins) : StepTo s (bootPins s)
  | registered (hboot : s.boot = .registerTimer) (hok : s.cfg.regOk = true) :
      StepTo s ((beginDelay (s.withTimer (some (-(s.cfg.tickDurationUs : Int))))).withBoot .mainLoop)
  | registrationFailed (hboot : s.boot = .registerTimer) (hok : s.cfg.regOk = false) :
      StepTo s (raiseRegistrationFailed s)

/-- A performed phase leads where `PhaseTo` says. -/
theorem phaseTo_of_exec (h : exec (decodePhase s.ph) s = .next u) : PhaseTo s u := by
  obtain ⟨hph, hd⟩ | ⟨hph, hd⟩ | ⟨hph, hd⟩ | ⟨hph, hd⟩ | ⟨hph, hd⟩ | ⟨hph, hd⟩ | ⟨hph, hd⟩ | ⟨hph, hd⟩ :=
    decodePhase_cases s.ph <;> rw [hd] at h
  · obtain ⟨hfail, hpend, rfl⟩ | rfl := execIdle_next h
    · exact .accept hph hfail hpend
    · exact .wait hph
  · cases h; exact .read hph
  · cases h; exact .compute hph
  · cases h; exact .clrdig hph
  · obtain ⟨pattern, hvis, henc, rfl⟩ | ⟨hvis, rfl⟩ := execSeg_next h
    · exact .segShown hph hvis pattern henc
    · exact .segBlanked hph hvis
  · cases h; exact .setdig hph
  · cases h; exact .advance hph
  · cases h; exact .ret hph

/-- A performed word of the channel is a `CLR` or a `PUT`: a reserved op answers no next state (R70). -/
theorem stepTo_of_busWord {w : BusWord} {i : Instr} (hr : Ready s) (hf : fetch s = .bus w)
    (hd : decodeBus w = .instr i) (h : exec i s = .next u) : StepTo s (u.withBusIn none) := by
  obtain ⟨hop, -, rfl⟩ | ⟨hop, -, rfl⟩ | ⟨-, rfl⟩ | ⟨-, rfl⟩ := decodeBus_instr hd
  · cases h; exact .clr hr hf hop
  · obtain ⟨-, rfl⟩ := execPut_next h
    exact .put hr hf hop
  · cases h
  · cases h

/-- The registration leads to the main loop or to the terminated process (R174). -/
theorem stepTo_bootRegister (hboot : s.boot = .registerTimer) : StepTo s (bootRegister s) := by
  unfold bootRegister
  split <;> rename_i hok
  · exact .registered hboot hok
  · exact .registrationFailed hboot (Bool.eq_false_iff.mpr hok)

/-- A step that answers a next state leads where `StepTo` says. -/
theorem stepTo_of_step (h : step s = .next t) : StepTo s t := by
  obtain ⟨i, u, hr, hd, he, rfl⟩ | ⟨-, -, hboot, rfl⟩ | ⟨-, -, hboot, -, rfl⟩ := step_next_cases h
  · obtain ⟨w, -, hf, hw⟩ | ⟨-, -, hf, rfl⟩ | ⟨-, -, hf, rfl⟩ := fetch_instr_cases hd <;> rw [hf]
    · exact stepTo_of_busWord hr hf hw he
    · cases he; exact .strobe hr hf
    · exact .phase hr hf (phaseTo_of_exec he)
  · exact .pins hboot
  · exact stepTo_bootRegister hboot

/-! The sequencer's registers: only a performed phase writes them. -/

/-- `t` has the parameters and the sequencer's registers of `s`: the tick, the phase and the four latches. -/
structure SameSequencer (s t : State) : Prop where
  cfg : t.cfg = s.cfg
  tick : t.tick = s.tick
  ph : t.ph = s.ph
  tl : t.tl = s.tl
  pos : t.pos = s.pos
  dval : t.dval = s.dval
  vis : t.vis = s.vis

theorem sameSequencer_sampleStrobe (s : State) : SameSequencer s (sampleStrobe s) := by
  constructor <;> simp

theorem sameSequencer_bootPins (s : State) : SameSequencer s (bootPins s) := by
  constructor <;> simp

/-- A step that performs no phase keeps the sequencer's registers, and `OUT` unless it performs a bus word. -/
theorem StepTo.phase_or_sameSequencer (h : StepTo s t) :
    (∃ u, Ready s ∧ fetch s = .phase s.ph ∧ PhaseTo s u ∧ t = sampleStrobe u) ∨
    (SameSequencer s t ∧ (s.boot = .mainLoop → fetch s ≠ .phase s.ph) ∧
      (t.out ≠ s.out → ∃ w, fetch s = .bus w)) := by
  cases h with
  | phase hr hf hp => exact .inl ⟨_, hr, hf, hp, rfl⟩
  | clr hr hf hop | put hr hf hop =>
    exact .inr ⟨⟨rfl, rfl, rfl, rfl, rfl, rfl, rfl⟩, fun _ => by rw [hf]; exact PlacedWord.noConfusion,
      fun _ => ⟨_, hf⟩⟩
  | strobe hr hf =>
    exact .inr ⟨⟨rfl, rfl, rfl, rfl, rfl, rfl, rfl⟩, fun _ => by rw [hf]; exact PlacedWord.noConfusion,
      fun hout => absurd rfl hout⟩
  | pins hboot =>
    exact .inr ⟨sameSequencer_bootPins s, fun hmain => by simp [hboot] at hmain,
      fun hout => absurd (bootPins_out s) hout⟩
  | registered hboot hok | registrationFailed hboot hok =>
    exact .inr ⟨⟨rfl, rfl, rfl, rfl, rfl, rfl, rfl⟩, fun hmain => by simp [hboot] at hmain,
      fun hout => absurd rfl hout⟩

/-! Each register's writer among the phases. -/

theorem PhaseTo.advance_of_tick_ne (h : PhaseTo s u) (hne : u.tick ≠ s.tick) : s.ph = Ph.advance := by
  cases h with
  | advance hph => exact hph
  | _ => exact absurd rfl hne

theorem PhaseTo.read_of_tl_ne (h : PhaseTo s u) (hne : u.tl ≠ s.tl) : s.ph = Ph.read := by
  cases h with
  | read hph => exact hph
  | _ => exact absurd rfl hne

theorem PhaseTo.compute_of_selection_ne (h : PhaseTo s u)
    (hne : u.pos ≠ s.pos ∨ u.dval ≠ s.dval ∨ u.vis ≠ s.vis) : s.ph = Ph.compute := by
  cases h with
  | compute hph => exact hph
  | _ => obtain hne | hne | hne := hne <;> exact absurd rfl hne

theorem PhaseTo.busPhase_of_out_ne (h : PhaseTo s u) (hne : u.out ≠ s.out) :
    s.ph = Ph.clrdig ∨ s.ph = Ph.seg ∨ s.ph = Ph.setdig := by
  cases h with
  | clrdig hph => exact .inl hph
  | segShown hph | segBlanked hph => exact .inr (.inl hph)
  | setdig hph => exact .inr (.inr hph)
  | _ => exact absurd rfl hne

/-- Settles O39: a register that changed was changed by a performed phase, which is its writer; `OUT` also by a word
of the channel. -/
theorem eachRegisterHasItsWriter : Obligations.EachRegisterHasItsWriter := by
  intro s t h
  obtain ⟨u, -, hf, hp, rfl⟩ | ⟨hsame, -, hout⟩ := (stepTo_of_step h).phase_or_sameSequencer
  · simp only [sampleStrobe_tick, sampleStrobe_tl, sampleStrobe_pos, sampleStrobe_dval, sampleStrobe_vis,
      sampleStrobe_out, hf, PlacedWord.phase.injEq]
    exact ⟨hp.advance_of_tick_ne, hp.read_of_tl_ne, hp.compute_of_selection_ne, fun hne => by
      simpa using hp.busPhase_of_out_ne hne⟩
  · refine ⟨fun hne => absurd hsame.tick hne, fun hne => absurd hsame.tl hne, fun hne => ?_,
      fun hne => .inr (.inr (.inr (hout hne)))⟩
    simp [hsame.pos, hsame.dval, hsame.vis] at hne

/-! The order of the phases. -/

/-- A performed phase moves `PH` to the next code modulo 8, except an IDLE that waits (R23). -/
theorem PhaseTo.waits_or_ph_next (h : PhaseTo s u) : (s.ph = Ph.idle ∧ u = s) ∨ u.ph = s.ph + 1#3 := by
  cases h with
  | wait hph => exact .inl ⟨hph, rfl⟩
  | accept hph | read hph | compute hph | clrdig hph | segShown hph | segBlanked hph | setdig hph | advance hph
  | ret hph => right; rw [hph]; rfl

/-- IDLE is left by accepting a pending firing only (R111). -/
theorem PhaseTo.pending_of_leaves_idle (h : PhaseTo s u) (hidle : s.ph = Ph.idle) (hleft : u.ph ≠ Ph.idle) :
    s.firePend = 1#1 ∧ u.firePend = 0#1 := by
  cases h with
  | wait => exact absurd hidle hleft
  | accept _ _ hpend => exact ⟨hpend, rfl⟩
  | read hph | compute hph | clrdig hph | segShown hph | segBlanked hph | setdig hph | advance hph | ret hph =>
    exact absurd (hidle.symm.trans hph) (by decide)

/-- Settles O40: a step that moves `PH` performed the phase `PH` names, and that phase moves it to the next code. -/
theorem phasesFollowTheirOrder : Obligations.PhasesFollowTheirOrder := by
  intro s t h
  obtain ⟨u, ⟨-, -, hboot, -⟩, hf, hp, rfl⟩ | ⟨hsame, hnot, -⟩ := (stepTo_of_step h).phase_or_sameSequencer
  · simp only [sampleStrobe_ph, sampleStrobe_firePend]
    refine ⟨?_, hp.pending_of_leaves_idle, fun _ _ hbusy => ?_⟩
    · obtain ⟨-, rfl⟩ | hnext := hp.waits_or_ph_next
      · exact .inl rfl
      · exact .inr ⟨hf, hboot, hnext⟩
    · exact hp.waits_or_ph_next.resolve_left fun hwait => hbusy hwait.1
  · exact ⟨.inl hsame.ph, fun hidle hleft => absurd (hsame.ph.trans hidle) hleft,
      fun hmain hphase => absurd hphase (hnot hmain)⟩

/-! What a running machine never changes. -/

/-- `t` has the configuration of `s`: the parameters, the pins, the registration, `REG_FAIL` and the place of the
main program. -/
structure SameConfiguration (s t : State) : Prop where
  cfg : t.cfg = s.cfg
  gpio : t.gpio = s.gpio
  dir : t.dir = s.dir
  inv : t.inv = s.inv
  drive : t.drive = s.drive
  timer : t.timer = s.timer
  regFail : t.regFail = s.regFail
  boot : t.boot = s.boot

/-- Performing an instruction and retiring its word keeps the configuration. -/
theorem sameConfiguration_of_exec {i : Instr} (h : exec i s = .next u) (w : PlacedWord) :
    SameConfiguration s (retire w u) := by
  obtain ⟨hcfg, hdir, hinv, hgpio, hdrive, hfail, htimer, hboot, -⟩ := exec_frame h
  obtain ⟨_, _, _, _, hretire, -⟩ := retire_frame w u
  rw [hretire]
  exact ⟨hcfg, hgpio, hdir, hinv, hdrive, htimer, hfail, hboot⟩

/-- A configuration that is kept keeps the machine ready. -/
theorem SameConfiguration.ready (h : SameConfiguration s t) (hr : Ready s) : Ready t := by
  obtain ⟨hcheck, hfail, hboot, hlaunch⟩ := hr
  exact ⟨h.cfg ▸ hcheck, h.regFail.trans hfail, h.boot.trans hboot,
    (launchReady_congr h.cfg h.gpio h.dir h.inv).trans hlaunch⟩

/-- The registration writes no parameter (R30). -/
@[simp] theorem bootRegister_cfg (s : State) : (bootRegister s).cfg = s.cfg := by
  rw [bootRegister_eq]
  split <;> rfl

/-- Settles O38: from the main loop a step performs an instruction, which keeps the whole configuration; the two
boot steps keep the parameters. -/
theorem runningConfigurationIsReadOnly : Obligations.RunningConfigurationIsReadOnly := by
  intro s t h
  obtain ⟨i, u, hr, -, he, rfl⟩ | ⟨-, -, hboot, rfl⟩ | ⟨-, -, hboot, -, rfl⟩ := step_next_cases h
  · have hsame := sameConfiguration_of_exec he (fetch s)
    exact ⟨hsame.cfg, fun _ => ⟨hsame.ready hr, hsame.gpio, hsame.dir, hsame.inv, hsame.drive, hsame.timer⟩⟩
  · exact ⟨bootPins_cfg s, fun hmain => by simp [hboot] at hmain⟩
  · exact ⟨bootRegister_cfg s, fun hmain => by simp [hboot] at hmain⟩

/-! The invariant of the block. -/

/-- The invariant reads the parameters and the sequencer's registers only. -/
theorem SameSequencer.blockInv (h : SameSequencer s t) (hs : BlockInv s) : BlockInv t := by
  unfold BlockInv LatchedFrom at *
  rwa [h.cfg, h.tick, h.ph, h.tl, h.pos, h.dval, h.vis]

/-- Before COMPUTE the invariant says that the tick is in range, and nothing of the latches. -/
theorem blockInv_of_before_compute (hcheck : paramCheck s.cfg = none) (htick : s.tick.toNat < period s.cfg)
    (hph : s.ph.toNat < Ph.compute.toNat) : BlockInv s := by
  have hlt : Ph.compute.toNat < Ph.clrdig.toNat := by decide
  exact ⟨hcheck, htick, fun _ => by omega, fun _ => by omega, fun _ => by omega⟩

/-- From a bus phase `PH` can move anywhere: the latches are all filled there, and `T_L` is still the tick. -/
theorem blockInv_withPh_of_busPhase {p : PhaseCode} (hs : BlockInv s)
    (hbus : s.ph = Ph.clrdig ∨ s.ph = Ph.seg ∨ s.ph = Ph.setdig) : BlockInv (s.withPh p) := by
  have ⟨hfrom, hto⟩ : Ph.clrdig.toNat ≤ s.ph.toNat ∧ s.ph.toNat ≤ Ph.advance.toNat := by
    obtain hph | hph | hph := hbus <;> rw [hph] <;> decide
  have hcompute : Ph.compute.toNat ≤ s.ph.toNat := le_trans (by decide) hfrom
  obtain ⟨hcheck, htick, hrange, heq, hlatched⟩ := hs
  exact ⟨hcheck, htick, fun _ => hrange hcompute, fun _ _ => heq hcompute hto, fun _ => hlatched hfrom⟩

/-- A bus command keeps the invariant, which does not read `OUT` or the history. -/
theorem blockInv_busClr (mask : Word) (hs : BlockInv s) : BlockInv (busClr mask s) :=
  SameSequencer.blockInv ⟨rfl, rfl, rfl, rfl, rfl, rfl, rfl⟩ hs

theorem blockInv_busPut (mask value : Word) (hs : BlockInv s) : BlockInv (busPut mask value s) :=
  SameSequencer.blockInv ⟨rfl, rfl, rfl, rfl, rfl, rfl, rfl⟩ hs

/-- COMPUTE latches the selection of the tick READ latched (R113). -/
theorem latchedFrom_withSelection (s : State) (n : Nat) :
    LatchedFrom (s.withSelection (BitVec.ofNat 3 (select s.cfg n).position)
      (BitVec.ofNat 4 (select s.cfg n).digitValue) (visFlag (select s.cfg n).visible)) n :=
  ⟨rfl, rfl, rfl⟩

/-- Each performed phase keeps the invariant. -/
theorem PhaseTo.blockInv (h : PhaseTo s u) (hs : BlockInv s) : BlockInv u := by
  have ⟨hcheck, htick, hrange, heq, hlatched⟩ := hs
  cases h with
  | wait => exact hs
  | accept => exact blockInv_of_before_compute hcheck htick (by simp [acceptFiring_eq])
  | read hph =>
    -- the tick in range is latched; CLRDIG is not reached
    exact ⟨hcheck, htick, fun _ => htick, fun _ _ => rfl, fun hafter => absurd hafter (by simp)⟩
  | compute hph =>
    rw [hph] at hrange heq
    exact ⟨hcheck, htick, fun _ => hrange (by decide), fun _ _ => heq (by decide) (by decide),
      fun _ => latchedFrom_withSelection s s.tl.toNat⟩
  | clrdig hph => exact blockInv_withPh_of_busPhase (blockInv_busClr _ hs) (.inl hph)
  | segShown hph => exact blockInv_withPh_of_busPhase (blockInv_busPut _ _ hs) (.inr (.inl hph))
  | segBlanked hph => exact blockInv_withPh_of_busPhase (blockInv_busClr _ hs) (.inr (.inl hph))
  | setdig hph => exact blockInv_withPh_of_busPhase (blockInv_busPut _ _ hs) (.inr (.inr hph))
  | advance hph =>
    -- the tick moves on and wraps in range; the latches still stand for the tick before
    rw [hph] at hrange hlatched
    exact ⟨hcheck, nextTick_lt_period (thisHardware_of_check hcheck) s.tick, fun _ => hrange (by decide),
      fun _ hbefore => absurd hbefore (by simp), fun _ => hlatched (by decide)⟩
  | ret => exact blockInv_of_before_compute hcheck htick (by simp [returnFromFiring_eq])

/-- Settles O48: a performed phase keeps the invariant (`PhaseTo.blockInv`), and every other step, like the sampling
of the strobe, keeps all that the invariant reads. -/
theorem stepKeepsBlockInv : Obligations.StepKeepsBlockInv := by
  intro s t hs h
  obtain ⟨u, -, -, hp, rfl⟩ | ⟨hsame, -, -⟩ := (stepTo_of_step h).phase_or_sameSequencer
  · exact (sameSequencer_sampleStrobe u).blockInv (hp.blockInv hs)
  · exact hsame.blockInv hs

theorem blockInv_resetWith {c : Config} (hc : paramCheck c = none) : BlockInv (State.resetWith c) :=
  blockInv_of_before_compute hc (period_pos (thisHardware_of_check hc)) (by simp)

theorem paramCheck_reference : paramCheck Config.reference = none := by decide

/-- Settles O49: at reset `PH` is IDLE and the tick is 0, below every period of this hardware. -/
theorem resetMeetsBlockInv : Obligations.ResetMeetsBlockInv :=
  ⟨fun _ => blockInv_resetWith, blockInv_resetWith paramCheck_reference⟩

end Sys2Proof.Machine
end

section
/-!
PROOFS. The bus commands (20_memory.md R45, 43_bus_driver.md R130, R131): what each answers, and what a command
leaves of an earlier one with the same mask.
-/

namespace Sys2Proof.Machine

/-- A `CLR` always completes (R130). -/
theorem exec_clr (mask : Word) (s : State) : exec (.clr mask) s = .next (busClr mask s) := rfl

/-- A `PUT` with well-formed operands completes (R65, R131). -/
theorem exec_put_of_wellFormed {mask value : Word} (hw : value &&& ~~~mask = 0#32) (s : State) :
    exec (.put mask value) s = .next (busPut mask value s) := if_pos hw

@[simp] theorem busClr_out (mask : Word) (s : State) : (busClr mask s).out = clrValue mask s.out := rfl

@[simp] theorem busPut_out (mask value : Word) (s : State) :
    (busPut mask value s).out = putValue mask value s.out := rfl

/-- Cleared pins stay cleared, and the others are kept twice. -/
@[simp] theorem clrValue_clrValue (mask out : Word) : clrValue mask (clrValue mask out) = clrValue mask out := by
  simp only [clrValue, BitVec.and_assoc, BitVec.and_self]

/-- Of two masked writes with one mask the later alone counts: a pin of the mask takes the later level, and any other
pin keeps its own through both. -/
@[simp] theorem putValue_putValue (mask earlier later out : Word) :
    putValue mask later (putValue mask earlier out) = putValue mask later out := by
  apply BitVec.eq_of_getLsbD_eq
  intro n hn
  simp only [putValue, BitVec.getLsbD_and, BitVec.getLsbD_or, BitVec.getLsbD_not, hn, decide_true, Bool.true_and]
  cases mask.getLsbD n with
  | true => simp
  | false => simp

/-- Settles O19: both issues complete, and the second masked update of `OUT` gives what the first gave
(`clrValue_clrValue`, `putValue_putValue`). -/
theorem busCommandsAreIdempotent : Obligations.BusCommandsAreIdempotent := by
  refine fun s => ⟨fun mask => ?_, fun mask value hw => ?_⟩
  · exact ⟨_, _, exec_clr mask s, exec_clr mask _, by simp only [busClr_out, clrValue_clrValue]⟩
  · exact ⟨_, _, exec_put_of_wellFormed hw s, exec_put_of_wellFormed hw _,
      by simp only [busPut_out, putValue_putValue]⟩

end Sys2Proof.Machine
end

section
/-!
PROOFS. Encoding (30_encoding.md sections 1 to 3, R62 to R65, R68 to R70): what the decoder says of a bus word, case
by case, and that the encoder and the decoder undo each other.
-/

namespace Sys2Proof

variable {w : BusWord} {i : Instr} {p : PlacedWord}

/-! The verdict on a bus word, by its op and its check (R64, R65, R70). -/

theorem decodeBus_of_clr (hop : busOp w = Op.clr) (hv : busValue w = 0#32) :
    decodeBus w = .instr (.clr (busMask w)) := by
  rw [decodeBus, if_pos hop, if_pos hv]

theorem decodeBus_of_clr_with_value (hop : busOp w = Op.clr) (hv : busValue w ≠ 0#32) :
    decodeBus w = .illFormed w := by
  rw [decodeBus, if_pos hop, if_neg hv]

theorem decodeBus_of_put (hop : busOp w = Op.put) (hv : busValue w &&& ~~~busMask w = 0#32) :
    decodeBus w = .instr (.put (busMask w) (busValue w)) := by
  rw [decodeBus, if_neg (by rw [hop]; decide), if_pos hop, if_pos hv]

theorem decodeBus_of_put_outside_mask (hop : busOp w = Op.put) (hv : busValue w &&& ~~~busMask w ≠ 0#32) :
    decodeBus w = .illFormed w := by
  rw [decodeBus, if_neg (by rw [hop]; decide), if_pos hop, if_neg hv]

theorem decodeBus_of_reserved2 (hop : busOp w = Op.reserved2) :
    decodeBus w = .instr (.reserved2 (busMask w) (busValue w)) := by
  rw [decodeBus, if_neg (by rw [hop]; decide), if_neg (by rw [hop]; decide), if_pos hop]

theorem decodeBus_of_reserved3 (hop : busOp w = Op.reserved3) :
    decodeBus w = .instr (.reserved3 (busMask w) (busValue w)) := by
  rw [decodeBus, if_neg (by rw [hop]; decide), if_neg (by rw [hop]; decide), if_neg (by rw [hop]; decide)]

/-! The same verdicts on a word assembled from its fields (R63). -/

theorem decodeBus_clrWord (mask : Word) : decodeBus (busWord Op.clr mask 0#32) = .instr (.clr mask) := by
  rw [decodeBus_of_clr (busOp_busWord ..) (busValue_busWord ..), busMask_busWord]

theorem decodeBus_clrWord_with_value {value : Word} (hv : value ≠ 0#32) (mask : Word) :
    decodeBus (busWord Op.clr mask value) = .illFormed (busWord Op.clr mask value) :=
  decodeBus_of_clr_with_value (busOp_busWord ..) (by rwa [busValue_busWord])

theorem decodeBus_putWord {mask value : Word} (hv : value &&& ~~~mask = 0#32) :
    decodeBus (busWord Op.put mask value) = .instr (.put mask value) := by
  rw [decodeBus_of_put (busOp_busWord ..) (by rwa [busValue_busWord, busMask_busWord]), busMask_busWord,
    busValue_busWord]

theorem decodeBus_putWord_outside_mask {mask value : Word} (hv : value &&& ~~~mask ≠ 0#32) :
    decodeBus (busWord Op.put mask value) = .illFormed (busWord Op.put mask value) :=
  decodeBus_of_put_outside_mask (busOp_busWord ..) (by rwa [busValue_busWord, busMask_busWord])

theorem decodeBus_reserved2Word (mask value : Word) :
    decodeBus (busWord Op.reserved2 mask value) = .instr (.reserved2 mask value) := by
  rw [decodeBus_of_reserved2 (busOp_busWord ..), busMask_busWord, busValue_busWord]

theorem decodeBus_reserved3Word (mask value : Word) :
    decodeBus (busWord Op.reserved3 mask value) = .instr (.reserved3 mask value) := by
  rw [decodeBus_of_reserved3 (busOp_busWord ..), busMask_busWord, busValue_busWord]

/-! Encoder and decoder. -/

theorem wellFormed_put_iff {mask value : Word} :
    (Instr.put mask value).wellFormed = true ↔ value &&& ~~~mask = 0#32 := by
  simp [Instr.wellFormed]

/-- The decoder reads a well-formed instruction back from its word. Only `PUT` has terms that are not well-formed. -/
theorem decode_encode (hw : i.wellFormed = true) : decode (encode i) = .instr i := by
  cases i with
  | idle | read | compute | clrdig | seg | setdig | advance | ret | fire => rfl
  | clr mask => exact decodeBus_clrWord mask
  | put mask value => exact decodeBus_putWord (wellFormed_put_iff.mp hw)
  | reserved2 mask value => exact decodeBus_reserved2Word mask value
  | reserved3 mask value => exact decodeBus_reserved3Word mask value

/-- All eight codes are used, each by one phase (R62). -/
theorem encode_decodePhase (p : PhaseCode) :
    encode (decodePhase p) = .phase p ∧ (decodePhase p).wellFormed = true := by
  revert p
  decide

/-- A bus word that decodes to an instruction is assembled from that instruction's fields: the op is fixed by the
instruction, and so is the value of a `CLR` (R63 to R65). -/
theorem encode_of_decodeBus (h : decodeBus w = .instr i) : encode i = .bus w ∧ i.wellFormed = true := by
  obtain ⟨hop, hv, rfl⟩ | ⟨hop, hv, rfl⟩ | ⟨hop, rfl⟩ | ⟨hop, rfl⟩ := decodeBus_instr h
  · exact ⟨by rw [encode, ← hop, ← hv, busWord_fields], rfl⟩
  · exact ⟨by rw [encode, ← hop, busWord_fields], wellFormed_put_iff.mpr hv⟩
  · exact ⟨by rw [encode, ← hop, busWord_fields], rfl⟩
  · exact ⟨by rw [encode, ← hop, busWord_fields], rfl⟩

/-- A placed word that decodes to an instruction is that instruction's word (R62 to R65, R68). -/
theorem encode_of_decode (h : decode p = .instr i) : encode i = p ∧ i.wellFormed = true := by
  cases p with
  | phase code => cases h; exact encode_decodePhase code
  | bus w => exact encode_of_decodeBus h
  | strobe b => obtain ⟨rfl, rfl⟩ := decodeStrobe_instr h; exact ⟨rfl, rfl⟩

/-- Settles O2, by cases on the instruction (`decode_encode`). -/
theorem decodeOfEncode : Obligations.DecodeOfEncode := fun _ => decode_encode

/-- Settles O3, by cases on the place the word stands in (`encode_of_decode`). -/
theorem encodeOfDecode : Obligations.EncodeOfDecode := fun _ _ => encode_of_decode

/-- Settles O1: each verdict on a word written out is a computation of the decoder. -/
theorem specWordsDecode : Obligations.SpecWordsDecode := by
  unfold Obligations.SpecWordsDecode
  decide

end Sys2Proof
end

section
/-!
PROOFS. Encoded words on the machine (30_encoding.md R65, R66, R68 to R70, R72): the step that performs a word, the
refusal of a word of the channel, and the words the phases issue.
-/

namespace Sys2Proof.Machine

variable {c : Config} {s t : State} {i : Instr} {w : BusWord}

/-! The place the next word stands in, and what retiring it does (log 2). -/

theorem fetch_of_busIn (h : s.busIn = some w) : fetch s = .bus w := by
  rw [fetch, h]

theorem fetch_of_strobe (hbus : s.busIn = none) (h : s.strobe = 1#1) : fetch s = .strobe 1#1 := by
  simp [fetch, hbus, h]

theorem fetch_of_no_request (hbus : s.busIn = none) (h : s.strobe = 0#1) : fetch s = .phase s.ph := by
  simp [fetch, hbus, h]

/-- Settles O6: the step performs the fetched word (`step_of_ready`), the word is fetched in the order of log 2, and a
performed phase samples the strobe, whose three cases are the laws of `sampleStrobe`. -/
theorem stepRunsTheDecodedInstruction : Obligations.StepRunsTheDecodedInstruction := by
  refine ⟨fun s i hr hd => ?_, fun s => ⟨fun _ => fetch_of_busIn, fetch_of_strobe, fetch_of_no_request⟩,
    fun t => ⟨fun _ => rfl, fun hunarmed _ => sampleStrobe_unarmed t hunarmed, fun _ => rfl,
      fun _ harmed hdue _ => sampleStrobe_due t harmed hdue,
      fun _ _ harmed hdue _ => sampleStrobe_waiting t harmed hdue⟩⟩
  rw [step_of_ready hr hd]
  cases exec i s with
  | next u => rfl
  | fault r => rfl
  | refused r => rfl

/-- Settles O7: the placed word is the one fetched (`fetch_placeWord`), and it decodes to its instruction
(`decode_encode`). -/
theorem placedWordRunsNext : Obligations.PlacedWordRunsNext := by
  intro s i hcheck hw
  have hd : decode (fetch (placeWord (encode i) s)) = .instr i := by
    rw [fetch_placeWord]
    exact decode_encode hw
  rw [step_of_ready (ready_placeWord hcheck _) hd, fetch_placeWord]

/-! Refusals (R70, R156). -/

theorem exec_put_outside_mask {mask value : Word} (hv : value &&& ~~~mask ≠ 0#32) (s : State) :
    exec (.put mask value) s = .refused (.illFormedBusWord (busWord Op.put mask value)) := if_neg hv

/-- A reserved instruction is refused in every state, with its own word recorded. -/
theorem exec_of_reserved (hres : i.isReserved = true) (henc : encode i = .bus w) (s : State) :
    exec i s = .refused (.reservedBusOp w) := by
  cases i with
  | reserved2 | reserved3 => cases henc; rfl
  | _ => cases hres

/-- A reserved op in the channel is performed as its instruction, whose meaning is the refusal of the very word. -/
theorem step_of_reservedWord (hr : Ready s) (hbus : s.busIn = some w)
    (hop : busOp w = Op.reserved2 ∨ busOp w = Op.reserved3) : step s = .refused (.reservedBusOp w) := by
  obtain ⟨i, hres, hd⟩ : ∃ i : Instr, i.isReserved = true ∧ decodeBus w = .instr i := by
    obtain hop | hop := hop
    · exact ⟨_, rfl, decodeBus_of_reserved2 hop⟩
    · exact ⟨_, rfl, decodeBus_of_reserved3 hop⟩
  have hfetch : decode (fetch s) = .instr i := by rw [fetch_of_busIn hbus]; exact hd
  rw [step_of_ready hr hfetch, exec_of_reserved hres (encode_of_decodeBus hd).1, performed]

/-- A word of the channel that fails R65 is refused before it is an instruction. -/
theorem step_of_illFormedWord (hr : Ready s) (hbus : s.busIn = some w) (hd : decodeBus w = .illFormed w) :
    step s = .refused (.illFormedBusWord w) := by
  have hplan : plan s = .refuse (.illFormedBusWord w) := by
    rw [plan_of_ready hr, planFetched, fetch_of_busIn hbus, decode, hd]
  rw [step, hplan]

/-! The operands of the phases' commands lie inside their masks, as R65 asks. -/

theorem and_not_eq_zero_of_and_eq {value mask : Word} (h : value &&& mask = value) : value &&& ~~~mask = 0#32 := by
  rw [← h, BitVec.and_assoc, BitVec.and_not_self]
  exact BitVec.and_zero

theorem segLane_and_not_segMask (h : ThisHardware c) (pattern : BitVec 8) :
    segLane c pattern &&& ~~~segMask c = 0#32 :=
  and_not_eq_zero_of_and_eq (segLane_and_segMask h pattern)

theorem digBit_and_not_digitMask (h : ThisHardware c) (p : BitVec 3) :
    digBit c p.toNat &&& ~~~digitMask c = 0#32 :=
  and_not_eq_zero_of_and_eq (digBit_and_digitMask h p.isLt)

/-! What each bus phase answers (R114, R115, R116). -/

theorem exec_clrdig (s : State) : exec .clrdig s = .next ((busClr (digitMask s.cfg) s).withPh Ph.seg) := rfl

theorem exec_setdig (s : State) :
    exec .setdig s = .next ((busPut (digitMask s.cfg) (digBit s.cfg s.pos.toNat) s).withPh Ph.advance) := rfl

theorem exec_seg_of_visible {pattern : BitVec 8} (hvis : s.vis = 1#1)
    (henc : segEncode s.cfg s.dval.toNat = .ok pattern) :
    exec .seg s = .next ((busPut (segMask s.cfg) (segLane s.cfg pattern) s).withPh Ph.setdig) := by
  rw [exec, execSeg, if_pos hvis, henc]

theorem exec_seg_of_not_visible (hvis : s.vis = 0#1) :
    exec .seg s = .next ((busClr (segMask s.cfg) s).withPh Ph.setdig) := by
  rw [exec, execSeg, if_neg (by rw [hvis]; decide)]

theorem showDigit_of_segEncode {d : Nat} {pattern : BitVec 8} (henc : segEncode c d = .ok pattern) :
    showDigit c d = .ok (.put (segMask c) (segLane c pattern)) := by
  rw [showDigit, henc]

/-- Settles O22: each bus phase answers its pseudo-operation's next state with the next phase in `PH`. The two `PUT`s
complete because their values lie inside their masks. -/
theorem busPhasesIssueTheirPseudoOperations : Obligations.BusPhasesIssueTheirPseudoOperations := by
  intro s hcheck
  have hw := thisHardware_of_check hcheck
  refine ⟨⟨_, exec_clr _ s, exec_clrdig s⟩, fun hvis hdigit => ?_,
    fun hvis => ⟨_, exec_clr _ s, exec_seg_of_not_visible hvis⟩,
    ⟨_, exec_put_of_wellFormed (digBit_and_not_digitMask hw s.pos) s, exec_setdig s⟩⟩
  have henc := segEncode_ok hw hdigit
  exact ⟨_, _, showDigit_of_segEncode henc, exec_put_of_wellFormed (segLane_and_not_segMask hw _) s,
    exec_seg_of_visible hvis henc⟩

/-! The events of the bus history (R133; log 14). -/

@[simp] theorem busClr_history (mask : Word) (s : State) :
    (busClr mask s).history = s.history ++ [⟨busWord Op.clr mask 0#32, clrValue mask s.out⟩] := rfl

@[simp] theorem busPut_history (mask value : Word) (s : State) :
    (busPut mask value s).history = s.history ++ [⟨busWord Op.put mask value, putValue mask value s.out⟩] := rfl

/-- Settles O18: each command's answer is `busClr` or `busPut` of its operands, which appends the one event. -/
theorem commandsRecordTheirWords : Obligations.CommandsRecordTheirWords := by
  refine fun s t => ⟨fun mask h => ?_, fun mask value h => ?_, fun h => ?_, fun hvis h => ?_, fun hvis h => ?_,
    fun h => ?_⟩
  · cases h; exact busClr_history mask s
  · obtain ⟨-, rfl⟩ := execPut_next h
    exact busPut_history mask value s
  · cases h; exact busClr_history _ s
  · rw [exec_seg_of_not_visible hvis] at h
    cases h; exact busClr_history _ s
  · obtain ⟨pattern, -, henc, rfl⟩ | ⟨hblank, -⟩ := execSeg_next h
    · exact ⟨pattern, henc, busPut_history _ _ s⟩
    · exact absurd hvis hblank
  · cases h; exact busPut_history _ _ s

/-- The bus command a phase issues, if it issues one: a `CLR`, or a `PUT` that meets R65, of one of the two buses
(R66, R136). -/
inductive PhaseCommand (s t : State) : Prop where
  | none (hhistory : t.history = s.history) (hout : t.out = s.out)
  | clr (mask : Word) (hmask : mask = segMask s.cfg ∨ mask = digitMask s.cfg) (p : PhaseCode)
      (ht : t = (busClr mask s).withPh p)
  | put (mask value : Word) (hmask : mask = segMask s.cfg ∨ mask = digitMask s.cfg)
      (hvalue : value &&& ~~~mask = 0#32) (p : PhaseCode) (ht : t = (busPut mask value s).withPh p)

theorem phaseCommand_of_exec (hphase : i.isPhase = true) (hcheck : paramCheck s.cfg = none)
    (h : exec i s = .next t) : PhaseCommand s t := by
  have hw := thisHardware_of_check hcheck
  cases i with
  | idle => obtain ⟨-, -, rfl⟩ | rfl := execIdle_next h <;> exact .none rfl rfl
  | read | compute | advance | ret => cases h; exact .none rfl rfl
  | clrdig => cases h; exact .clr _ (.inr rfl) _ rfl
  | seg =>
    obtain ⟨pattern, -, -, rfl⟩ | ⟨-, rfl⟩ := execSeg_next h
    · exact .put _ _ (.inl rfl) (segLane_and_not_segMask hw pattern) _ rfl
    · exact .clr _ (.inl rfl) _ rfl
  | setdig => cases h; exact .put _ _ (.inr rfl) (digBit_and_not_digitMask hw s.pos) _ rfl
  | clr | put | reserved2 | reserved3 | fire => cases hphase

/-- The word of an event a phase appends: that of a `CLR`, or of a `PUT` that meets R65 (R66). -/
theorem phaseEvent_word {e : BusEvent} (hphase : i.isPhase = true) (hcheck : paramCheck s.cfg = none)
    (h : exec i s = .next t) (he : t.history = s.history ++ [e]) :
    (∃ mask, e.word = busWord Op.clr mask 0#32) ∨
    (∃ mask value : Word, value &&& ~~~mask = 0#32 ∧ e.word = busWord Op.put mask value) := by
  cases phaseCommand_of_exec hphase hcheck h with
  | none hhistory => simp [hhistory] at he
  | clr mask _ p ht =>
    subst ht
    have hevent := List.append_cancel_left he
    cases hevent; exact .inl ⟨mask, rfl⟩
  | put mask value _ hvalue p ht =>
    subst ht
    have hevent := List.append_cancel_left he
    cases hevent; exact .inr ⟨mask, value, hvalue, rfl⟩

/-- Settles O4: the decoder's verdicts on assembled words, and the two forms a phase's event word can have
(`phaseEvent_word`). -/
theorem busWordWellFormedness : Obligations.BusWordWellFormedness := by
  refine ⟨fun mask value => ⟨fun hv => ?_, fun hv => decodeBus_clrWord_with_value hv mask, decodeBus_putWord,
    decodeBus_putWord_outside_mask⟩, fun i s t e hphase hcheck h he => ?_⟩
  · rw [hv]
    exact decodeBus_clrWord mask
  · obtain ⟨mask, hword⟩ | ⟨mask, value, hv, hword⟩ := phaseEvent_word hphase hcheck h he <;> rw [hword]
    · exact .inl ⟨mask, decodeBus_clrWord mask⟩
    · exact .inr ⟨mask, value, decodeBus_putWord hv⟩

/-- Settles O5: the refusals of the terms, of the channel's word by its op and its check, and the fields of a phase's
event word, which are never those of a refused word (`phaseEvent_word`). -/
theorem reservedAndIllFormedWordsAreRefused : Obligations.ReservedAndIllFormedWordsAreRefused := by
  refine ⟨fun mask value s => ⟨exec_of_reserved rfl rfl s, exec_of_reserved rfl rfl s,
      fun hv => exec_put_outside_mask hv s⟩, fun s w hr hbus => ⟨?_, ?_, ?_⟩,
    fun i s t e hphase hcheck h he => ?_⟩
  · exact step_of_reservedWord hr hbus
  · exact fun hop hv => step_of_illFormedWord hr hbus (decodeBus_of_clr_with_value hop hv)
  · exact fun hop hv => step_of_illFormedWord hr hbus (decodeBus_of_put_outside_mask hop hv)
  · obtain ⟨mask, hword⟩ | ⟨mask, value, hv, hword⟩ := phaseEvent_word hphase hcheck h he <;> rw [hword]
    · exact .inl ⟨busOp_busWord .., busValue_busWord ..⟩
    · exact .inr ⟨busOp_busWord .., by rwa [busValue_busWord, busMask_busWord]⟩

end Sys2Proof.Machine
end

section
/-!
PROOFS. The Segment Encoder (40_segment_encoder.md R80, R82, R84, R85): what it answers of a digit, and its refusal
of an argument that is none, with which phase SEG is refused (log 28).
-/

namespace Sys2Proof.Machine

variable {c : Config} {s : State} {d : Nat}

theorem segTable_entry (h : ThisHardware c) (hd : d < 10) : ∃ v, c.segTable[d]? = some v ∧ v < 2 ^ 8 := by
  have hl : d < c.segTable.length := by rw [h.table_length]; exact hd
  exact ⟨_, List.getElem?_eq_getElem hl, h.table_entries _ (List.getElem_mem hl)⟩

theorem segEncode_of_entry {v : Nat} (h : ThisHardware c) (hd : d < 10) (hv : c.segTable[d]? = some v) :
    segEncode c d = .ok (BitVec.ofNat 8 v) := by
  rw [segEncode_ok h hd, List.getD_eq_getElem?_getD, hv, Option.getD_some]

theorem segEncode_of_ten_le (hd : 10 ≤ d) : segEncode c d = .error (.encodeArgument d) := by
  rw [segEncode, if_pos hd]

theorem exec_seg_of_segEncode_error {r : Refusal} (hvis : s.vis = 1#1)
    (henc : segEncode s.cfg s.dval.toNat = .error r) : exec .seg s = .refused r := by
  rw [exec, execSeg, if_pos hvis, henc]

/-- Settles O23: below 10 the table's check gives an entry of eight bits, which the encoder answers unchanged; from 10
the encoder refuses, under every configuration, and SEG passes that refusal on. -/
theorem encodeIsTheTable : Obligations.EncodeIsTheTable := by
  refine fun c hcheck d => ⟨fun hd => ?_, fun hd => ⟨segEncode_of_ten_le hd, fun s hvis hdval => ?_⟩⟩
  · have hw := thisHardware_of_check hcheck
    obtain ⟨v, hentry, hlt⟩ := segTable_entry hw hd
    exact ⟨v, hentry, BitVec.ofNat 8 v, segEncode_of_entry hw hd hentry,
      (BitVec.toNat_ofNat v 8).trans (Nat.mod_eq_of_lt hlt)⟩
  · subst hdval
    exact exec_seg_of_segEncode_error hvis (segEncode_of_ten_le hd)

end Sys2Proof.Machine
end

section
/-!
PROOFS. The Digit Multiplexer (41_digit_multiplexer.md R90 to R101): what the position, the count, the digit value and
the visibility gate are, each said once, and the dwell and the coverage that follow.
-/

namespace Sys2Proof.Machine

variable {c : Config} {cnt p t : Nat}

/-! The position and the decimal place. -/

theorem select_position_eq_mod (h : ThisHardware c) (t : Nat) : (select c t).position = t % 8 := by
  rw [← h.digits]; rfl

theorem place_lt (p : Nat) : place p < 4 := Nat.mod_lt p (by decide)

theorem place_add_four (p : Nat) : place (p + 4) = place p := Nat.add_mod_right p 4

/-- The position is the tick's low three bits (R91). -/
theorem select_position_eq_extractLsb (h : ThisHardware c) (t : Word) :
    (select c t.toNat).position = (t.extractLsb' 0 3).toNat := by
  rw [select_position_eq_mod h, BitVec.extractLsb'_toNat, Nat.shiftRight_zero]

/-- The place is the tick's low two bits: 4 divides 8 (R94). -/
theorem place_select_eq_extractLsb (h : ThisHardware c) (t : Word) :
    place (select c t.toNat).position = (t.extractLsb' 0 2).toNat := by
  rw [select_position_eq_mod h, BitVec.extractLsb'_toNat, Nat.shiftRight_zero]
  exact Nat.mod_mod_of_dvd t.toNat (by decide)

/-! The count. -/

theorem count_eq_div (h : ThisHardware c) (t : Nat) : count c t = t / (8 * c.roundPerCount) := by
  rw [count, h.digits, Nat.div_div_eq_div_mul, Nat.mul_comm]

/-- The count is the block's number on the whole aligned block (R99). -/
theorem count_of_block (h : ThisHardware c) (k : Nat) {j : Nat} (hj : j < 8 * c.roundPerCount) :
    count c (k * (8 * c.roundPerCount) + j) = k := by
  rw [count_eq_div h, Nat.mul_comm k, Nat.mul_add_div (Nat.zero_lt_of_lt hj), Nat.div_eq_of_lt hj, Nat.add_zero]

/-- The last tick of an unaligned window of one block's length lies in the next block (R99, C3). -/
theorem count_of_unaligned_window (h : ThisHardware c) {a : Nat} (ha : a % (8 * c.roundPerCount) ≠ 0) :
    count c (a + 8 * c.roundPerCount - 1) = count c a + 1 := by
  have hR := h.rounds
  have hlt := Nat.mod_lt a (show 0 < 8 * c.roundPerCount by omega)
  have hlast : a + 8 * c.roundPerCount - 1 =
      (count c a + 1) * (8 * c.roundPerCount) + (a % (8 * c.roundPerCount) - 1) := by
    have hsplit := Nat.div_add_mod' a (8 * c.roundPerCount)
    rw [count_eq_div h, Nat.add_one_mul (a / _)]
    omega
  rw [hlast, count_of_block h _ (by omega)]

theorem count_period (h : ThisHardware c) : count c (period c) = 10000 := by
  have hR := h.rounds
  rw [period_eq h, Nat.mul_comm]
  exact count_of_block h 10000 (j := 0) (by omega)

theorem count_lt_of_lt_period (h : ThisHardware c) (ht : t < period c) : count c t < 10000 := by
  rw [count_eq_div h]
  exact Nat.div_lt_of_lt_mul (period_eq h ▸ ht)

/-! The digit value and the visibility gate. -/

theorem digitValue_of_place {k : Nat} (hk : place p = k) (cnt : Nat) :
    digitValue cnt p = cnt / dividers.getD k 1 % 10 := by
  rw [digitValue, hk]

/-- Positions four apart share the decimal place and so the digit value (R97). -/
theorem digitValue_add_four (cnt p : Nat) : digitValue cnt (p + 4) = digitValue cnt p :=
  digitValue_of_place (place_add_four p) cnt

theorem visible_iff : visible cnt p = true ↔ cnt % 2 = p / 4 := by
  rw [visible, beq_iff_eq]

theorem visible_iff_even (hp : p < 4) : visible cnt p = true ↔ cnt % 2 = 0 := by
  rw [visible_iff, Nat.div_eq_of_lt hp]

theorem visible_iff_odd (hlo : 4 ≤ p) (hhi : p < 8) : visible cnt p = true ↔ cnt % 2 = 1 := by
  have hgroup : p / 4 = 1 := by omega
  rw [visible_iff, hgroup]

/-- The gate in bits: the group of a position below 8 is its bit 2 (R96). -/
theorem visible_iff_testBit_eq (hp : p < 8) : visible cnt p = true ↔ cnt.testBit 0 = p.testBit 2 := by
  have hbit : p / 4 % 2 = p / 4 := by omega
  have hcount : cnt % 2 < 2 := Nat.mod_lt cnt (by decide)
  rw [visible_iff, Nat.testBit_eq_decide_div_mod_eq, Nat.testBit_eq_decide_div_mod_eq, decide_eq_decide,
    Nat.pow_zero, Nat.div_one, show 2 ^ 2 = 4 from rfl, hbit]
  omega

/-! The coverage of the positions. -/

/-- Below a multiple of 8 every position is taken by one tick in eight (R101). -/
theorem countP_select_position (h : ThisHardware c) (hp : p < 8) {n : Nat} (hn : n % 8 = 0) :
    ((List.range n).countP fun t => (select c t).position == p) = n / 8 := by
  have hmod : ∀ t, (select c t).position = p ↔ t ≡ p [MOD 8] := fun t => by
    change _ ↔ t % 8 = p % 8
    rw [select_position_eq_mod h, Nat.mod_eq_of_lt hp]
  calc ((List.range n).countP fun t => (select c t).position == p)
      = n.count (· ≡ p [MOD 8]) := List.countP_congr fun t _ => by
        rw [beq_iff_eq, decide_eq_true_iff, hmod]
    _ = n / 8 := by rw [Nat.count_modEq_card n (by decide), hn, if_neg (Nat.not_lt_zero _), Nat.add_zero]

/-! The obligations. -/

/-- Settles O24: the position is the tick mod 8, the place picks the divisor, and the gate is `visible_iff`. -/
theorem selectFollowsTheRules : Obligations.SelectFollowsTheRules := by
  intro c hcheck t
  have hw := thisHardware_of_check hcheck
  have hpos : position c t = t % 8 := select_position_eq_mod hw t
  have hcount : count c t = t / c.roundPerCount / 8 := by rw [count, hw.digits]
  have hselect : select c t = ⟨t % 8, digitValue (t / c.roundPerCount / 8) (t % 8),
      visible (t / c.roundPerCount / 8) (t % 8)⟩ := by rw [select, hpos, hcount]
  rw [hselect]
  exact ⟨rfl, fun hk => digitValue_of_place hk _, fun hk => digitValue_of_place hk _,
    fun hk => digitValue_of_place hk _, fun hk => digitValue_of_place hk _, visible_iff⟩

/-- Settles O25: the low bits of the tick are its remainders by 8 and by 4, and the position's group is its bit 2. -/
theorem selectInBits : Obligations.SelectInBits := by
  intro c hcheck t
  have hw := thisHardware_of_check hcheck
  exact ⟨select_position_eq_extractLsb hw t, place_select_eq_extractLsb hw t,
    visible_iff_testBit_eq (select_position_lt hw t.toNat)⟩

/-- Settles O27: the ranges of the parts, and that the latches hold them. -/
theorem selectRanges : Obligations.SelectRanges := by
  intro c hcheck t
  have hw := thisHardware_of_check hcheck
  exact ⟨Nat.le_of_lt_succ (select_position_lt hw t), Nat.le_of_lt_succ (place_lt _),
    Nat.le_of_lt_succ (select_digitValue_lt c t), fun ht => Nat.le_of_lt_succ (count_lt_of_lt_period hw ht),
    count_period hw, latched_position_toNat hw t, latched_digitValue_toNat c t⟩

/-- Settles O28: the count of an aligned block, and of the last tick of an unaligned window. -/
theorem countDwellsOnAlignedBlocks : Obligations.CountDwellsOnAlignedBlocks := by
  intro c hcheck
  have hw := thisHardware_of_check hcheck
  exact ⟨fun k _ hj => count_of_block hw k hj, fun _ ha => count_of_unaligned_window hw ha⟩

/-- Settles O30: the period is a multiple of 8, below which `countP_select_position` counts each position. -/
theorem everyPositionIsVisitedEquallyOften : Obligations.EveryPositionIsVisitedEquallyOften := by
  intro c hcheck
  have hw := thisHardware_of_check hcheck
  have hperiod : period c % 8 = 0 := by
    rw [period_eq hw, Nat.mul_assoc]
    exact Nat.mul_mod_right 8 _
  rw [hw.digits]
  exact ⟨fun t _ => ⟨select_position_eq_mod hw t, select_position_lt hw t⟩,
    fun p hp => countP_select_position hw hp hperiod⟩

/-- Settles O26: two floor divisions in a row are one by the product. -/
theorem countIsOneDivision : Obligations.CountIsOneDivision :=
  fun _ hcheck t => count_eq_div (thisHardware_of_check hcheck) t

/-- Settles O29: each group's gate is one parity of the count, and the two parities exclude each other. -/
theorem visibilityGroups : Obligations.VisibilityGroups := by
  refine ⟨fun cnt p _ => (digitValue_add_four cnt p).symm, fun _ _ hp => visible_iff_even hp,
    fun _ _ hlo hhi => visible_iff_odd hlo hhi, fun cnt p q hp hlo hhi => ?_⟩
  rw [Bool.eq_not_iff, ne_eq, Bool.eq_iff_iff, visible_iff_even hp, visible_iff_odd hlo hhi]
  omega

end Sys2Proof.Machine
end

section
/-!
PROOFS. The eight phases one by one (42_tick_scheduler.md R111 to R118): what each answers, with its whole next state.
-/

namespace Sys2Proof.Machine

variable {s t : State} {mask value : Word} {p : PhaseCode}

/-! What the phases that issue no bus command answer. -/

theorem exec_idle_of_pending (hfail : s.regFail = 0#1) (hpend : s.firePend = 1#1) :
    exec .idle s = .next (acceptFiring s) := if_pos ⟨hfail, hpend⟩

theorem exec_idle_of_nothing_to_accept (h : ¬ (s.regFail = 0#1 ∧ s.firePend = 1#1)) : exec .idle s = .next s :=
  if_neg h

theorem exec_read (s : State) : exec .read s = .next ((s.withTl s.tick).withPh Ph.compute) := rfl

theorem exec_compute (s : State) :
    exec .compute s = .next ((s.withSelection (BitVec.ofNat 3 (select s.cfg s.tl.toNat).position)
      (BitVec.ofNat 4 (select s.cfg s.tl.toNat).digitValue)
      (visFlag (select s.cfg s.tl.toNat).visible)).withPh Ph.clrdig) := rfl

theorem exec_advance (s : State) :
    exec .advance s = .next ((s.withTick (nextTick s.cfg s.tick)).withPh Ph.ret) := rfl

theorem exec_ret (s : State) : exec .ret s = .next (s.withPh Ph.idle) := rfl

/-- `VIS` stands for visibility exactly (R25). -/
theorem visFlag_eq_one_iff (v : Bool) : visFlag v = 1#1 ↔ v = true := by
  cases v <;> simp [visFlag]

/-- After the last tick of the period comes 0 (R117). -/
theorem nextTick_of_last {c : Config} (h : ThisHardware c) {tick : Word} (hlast : tick.toNat + 1 = period c) :
    nextTick c tick = 0#32 := by
  apply BitVec.eq_of_toNat_eq
  rw [nextTick_toNat h, hlast, Nat.mod_self]
  rfl

/-! What a phase that issues a bus command changes: `OUT` by the command, one event, and `PH`. -/

/-- A phase that issues `CLR mask` is that command with another `PH`; no bit of the mask is left. -/
theorem busClr_withPh_effect (ht : t = (busClr mask s).withPh p) :
    exec (.clr mask) s = .next { t with ph := s.ph } ∧
    t = { s with out := s.out &&& ~~~mask, history := t.history, ph := p } ∧
    busHistory t = busHistory s ++ [t.out] ∧
    t.out &&& mask = 0#32 := by
  subst ht
  exact ⟨rfl, rfl, by simp [busHistory], clrValue_and_mask mask s.out⟩

/-- A masked write of a value inside its mask puts the value itself beside the other bits (R65, R131). -/
theorem putValue_of_value_in_mask (hin : value &&& mask = value) (out : Word) :
    putValue mask value out = (out &&& ~~~mask) ||| value := by
  rw [putValue, hin]

/-- A phase that issues `PUT mask, value` with the value inside its mask is that command with another `PH`; the bits
of the mask are then the value's. -/
theorem busPut_withPh_effect (hin : value &&& mask = value) (ht : t = (busPut mask value s).withPh p) :
    t = { s with out := (s.out &&& ~~~mask) ||| value, history := t.history, ph := p } ∧
    busHistory t = busHistory s ++ [t.out] ∧
    t.out &&& mask = value ∧
    exec (.put mask value) s = .next { t with ph := s.ph } := by
  subst ht
  refine ⟨?_, by simp [busHistory], ?_, exec_put_of_wellFormed (and_not_eq_zero_of_and_eq hin) s⟩
  · rw [← putValue_of_value_in_mask hin]
    rfl
  · exact (putValue_and_mask mask value s.out).trans hin

/-- The lane of a table entry of eight bits is the entry's number, shifted to the segment bus (R66, R82). -/
theorem segLane_ofNat {c : Config} {v : Nat} (hv : v < 2 ^ 8) :
    segLane c (BitVec.ofNat 8 v) = BitVec.ofNat 32 v <<< c.segBase := by
  have hext : (BitVec.ofNat 8 v).zeroExtend 32 = BitVec.ofNat 32 v := by
    apply BitVec.eq_of_toNat_eq
    simp only [BitVec.truncate_eq_setWidth, BitVec.toNat_setWidth, BitVec.toNat_ofNat, Nat.mod_eq_of_lt hv]
  rw [segLane, hext]

/-! The obligations. -/

/-- Settles O8: IDLE's one condition decides between acceptance and the wait. -/
theorem idleAcceptsAPendingFiring : Obligations.IdleAcceptsAPendingFiring :=
  fun _ => ⟨exec_idle_of_pending, exec_idle_of_nothing_to_accept⟩

/-- Settles O9: READ's answer is the named update of `T_L` and `PH`. -/
theorem readLatchesTheTick : Obligations.ReadLatchesTheTick := exec_read

/-- Settles O10: COMPUTE writes `select(T_L)` into the latches, whose widths hold it. -/
theorem computeLatchesTheSelection : Obligations.ComputeLatchesTheSelection := by
  intro s hcheck
  exact ⟨_, _, _, exec_compute s, latched_position_toNat (thisHardware_of_check hcheck) _,
    latched_digitValue_toNat s.cfg _, visFlag_eq_one_iff _⟩

/-- Settles O11: CLRDIG is a phase of `CLR DIGIT_MASK`. -/
theorem clrdigClearsTheDigitBus : Obligations.ClrdigClearsTheDigitBus :=
  fun s => ⟨_, exec_clrdig s, busClr_withPh_effect rfl⟩

/-- Settles O12: SEG is a phase of `PUT` of the digit's entry, which has eight bits and so lies inside `SEG_MASK`, or
of `CLR SEG_MASK`. -/
theorem segWritesOrBlanksTheSegmentBus : Obligations.SegWritesOrBlanksTheSegmentBus := by
  refine ⟨fun s hcheck hvis hdigit => ?_, fun s hvis => ⟨_, exec_seg_of_not_visible hvis, busClr_withPh_effect rfl⟩⟩
  have hw := thisHardware_of_check hcheck
  obtain ⟨v, hentry, hlt⟩ := segTable_entry hw hdigit
  refine ⟨v, _, hentry, hlt, exec_seg_of_visible hvis (segEncode_of_entry hw hdigit hentry), ?_⟩
  rw [← segLane_ofNat hlt]
  exact busPut_withPh_effect (segLane_and_segMask hw _) rfl

/-- Settles O13: SETDIG is a phase of `PUT` of the position's bit, which lies inside `DIGIT_MASK`. -/
theorem setdigSelectsExactlyOneDigit : Obligations.SetdigSelectsExactlyOneDigit := by
  intro s hcheck
  exact ⟨_, exec_setdig s, busPut_withPh_effect
    (digBit_and_digitMask (thisHardware_of_check hcheck) s.pos.isLt) rfl⟩

/-- Settles O14: ADVANCE writes `nextTick`, whose value does not overflow the tick. -/
theorem advanceMovesTheTick : Obligations.AdvanceMovesTheTick := by
  intro s hcheck
  have hw := thisHardware_of_check hcheck
  have hnext := nextTick_toNat hw s.tick
  exact ⟨_, exec_advance s, hnext, nextTick_of_last hw, fun hlatch => hlatch ▸ hnext⟩

/-- Settles O15: RETURN's answer is the named update of `PH`. -/
theorem returnEndsTheFiring : Obligations.ReturnEndsTheFiring := exec_ret

end Sys2Proof.Machine
end

section
/-!
PROOFS. One firing (42_tick_scheduler.md R119, R120, R123): the eight phases run as one, with the whole state they
answer written out from R119's `Fire` and the command words of R66.
-/

namespace Sys2Proof.Machine

variable {c : Config} {s : State}

/-! The three events of a firing, each from the bus state before it (R66, R119; log 14). -/

/-- Step c: no digit is selected. -/
def deselectEvent (c : Config) (out : Word) : BusEvent :=
  ⟨busWord 0b00#2 (digitMask c) 0#32, out &&& ~~~digitMask c⟩

/-- Step d: the segment bus holds the selection's pattern. -/
def segmentEvent (c : Config) (r : Selection) (out : Word) : BusEvent :=
  ⟨if r.visible then busWord 0b01#2 (segMask c) (firePattern c r) else busWord 0b00#2 (segMask c) 0#32,
    (out &&& ~~~segMask c) ||| firePattern c r⟩

/-- Step e: the selection's digit is selected. -/
def selectEvent (c : Config) (r : Selection) (out : Word) : BusEvent :=
  ⟨busWord 0b01#2 (digitMask c) (digBit c r.position), (out &&& ~~~digitMask c) ||| digBit c r.position⟩

/-- The events a firing at `tick` appends to the history. -/
def fireEvents (c : Config) (tick out : Word) : List BusEvent :=
  [deselectEvent c out, segmentEvent c (select c tick.toNat) (fireWhole c tick out).out1,
    selectEvent c (select c tick.toNat) (fireWhole c tick out).out2]

/-- The events carry the command words of R120, in order. -/
theorem fireEvents_words (c : Config) (tick out : Word) :
    (fireEvents c tick out).map (·.word) = fireWords c tick := rfl

/-- The events carry the three bus states of R119's `Fire`, in order. -/
theorem fireEvents_outs (c : Config) (tick out : Word) :
    (fireEvents c tick out).map (·.out) =
      [(fireWhole c tick out).out1, (fireWhole c tick out).out2, (fireWhole c tick out).out3] := rfl

/-! The states a firing passes through, written out. -/

/-- `OUT` is the event's, and the event is the last of the history (R133). -/
def recordEvent (e : BusEvent) (s : State) : State := { s with out := e.out, history := s.history ++ [e] }

/-- In CLRDIG: the firing is accepted, and the latches hold the tick and its selection. -/
def latchedForFiring (s : State) : State :=
  { s with
    firePend := 0#1
    ph := Ph.clrdig
    tl := s.tick
    pos := BitVec.ofNat 3 (select s.cfg s.tick.toNat).position
    dval := BitVec.ofNat 4 (select s.cfg s.tick.toNat).digitValue
    vis := visFlag (select s.cfg s.tick.toNat).visible }

/-- In ADVANCE: the three bus commands of the tick's firing are issued. -/
def afterBusPhases (s : State) : State :=
  { s with
    out := (fireWhole s.cfg s.tick s.out).out3
    history := s.history ++ fireEvents s.cfg s.tick s.out
    ph := Ph.advance }

/-- Back in IDLE: the firing has ended. -/
def afterFiring (s : State) : State :=
  { afterBusPhases (latchedForFiring s) with
    tick := (fireWhole s.cfg s.tick s.out).tick
    ph := Ph.idle }

/-! The bus phases on latched values. -/

theorem exec_clrdig_eq_recordEvent (s : State) :
    exec .clrdig s = .next ((recordEvent (deselectEvent s.cfg s.out) s).withPh Ph.seg) := rfl

/-- SEG puts the latched selection's pattern on the segment bus; of a digit not visible the pattern is 0, which is
what clearing the bus leaves (R115). -/
theorem exec_seg_of_latched (hw : ThisHardware s.cfg) {n : Nat} (hl : LatchedFrom s n) :
    exec .seg s = .next ((recordEvent (segmentEvent s.cfg (select s.cfg n) s.out) s).withPh Ph.setdig) := by
  obtain ⟨-, hdval, hvis⟩ := hl
  cases hv : (select s.cfg n).visible with
  | true =>
    have hshown : s.vis = 1#1 := by rw [hvis, hv]; rfl
    have hdigit : s.dval.toNat = (select s.cfg n).digitValue := by rw [hdval, latched_digitValue_toNat]
    have hencode := (congrArg (segEncode s.cfg) hdigit).trans (segEncode_select hw n)
    rw [exec_seg_of_visible hshown hencode, busPut_eq, segLane_and_segMask hw]
    simp only [recordEvent, segmentEvent, firePattern, hv, if_true]
  | false =>
    have hblank : s.vis = 0#1 := by rw [hvis, hv]; rfl
    rw [exec_seg_of_not_visible hblank, busClr_eq]
    simp [recordEvent, segmentEvent, firePattern, hv]

/-- SETDIG selects the latched selection's digit (R116). -/
theorem exec_setdig_of_latched (hw : ThisHardware s.cfg) {n : Nat} (hl : LatchedFrom s n) :
    exec .setdig s = .next ((recordEvent (selectEvent s.cfg (select s.cfg n) s.out) s).withPh Ph.advance) := by
  obtain ⟨hpos, -, -⟩ := hl
  rw [exec_setdig, hpos, latched_position_toNat hw, busPut_eq, digBit_and_digitMask hw (select_position_lt hw n)]
  rfl

/-! The run of a firing. -/

/-- IDLE, READ and COMPUTE of a posted firing accept it and fill the latches. -/
theorem runPhases_to_clrdig (hfail : s.regFail = 0#1) (hph : s.ph = Ph.idle) (n : Nat) :
    runPhases (n + 3) (postFiring s) = runPhases n (latchedForFiring s) := by
  have hidle : decodePhase (postFiring s).ph = .idle := by rw [postFiring_eq, hph]; rfl
  rw [runPhases_succ hidle (exec_idle_of_pending hfail rfl), runPhases_succ (by rfl) (exec_read _),
    runPhases_succ (by rfl) (exec_compute _)]
  rfl

/-- CLRDIG, SEG and SETDIG of latches that hold the tick's selection issue the three commands of its firing. -/
theorem runPhases_busPhases (hw : ThisHardware s.cfg) (hph : s.ph = Ph.clrdig) (hl : LatchedFrom s s.tick.toNat)
    (n : Nat) : runPhases (n + 3) s = runPhases n (afterBusPhases s) := by
  have hclrdig : decodePhase s.ph = .clrdig := by rw [hph]; rfl
  rw [runPhases_succ hclrdig (exec_clrdig_eq_recordEvent s),
    runPhases_succ (by rfl) (exec_seg_of_latched (by exact hw) (n := s.tick.toNat) (by exact hl)),
    runPhases_succ (by rfl) (exec_setdig_of_latched (by exact hw) (n := s.tick.toNat) (by exact hl))]
  have happend : ∀ e₁ e₂ e₃ : BusEvent, s.history ++ [e₁] ++ [e₂] ++ [e₃] = s.history ++ [e₁, e₂, e₃] := by simp
  exact congrArg (fun h => runPhases n { afterBusPhases s with history := h }) (happend ..)

/-- A firing completes, from every bus state, and this is the whole state it leads to. -/
theorem firing_eq (hw : ThisHardware s.cfg) (hfail : s.regFail = 0#1) (hph : s.ph = Ph.idle) :
    firing s = .next (afterFiring s) := by
  calc firing s = runPhases 8 (postFiring s) := rfl
    _ = runPhases 5 (latchedForFiring s) := runPhases_to_clrdig hfail hph 5
    _ = runPhases 2 (afterBusPhases (latchedForFiring s)) :=
      runPhases_busPhases (s := latchedForFiring s) hw rfl ⟨rfl, rfl, rfl⟩ 2
    _ = .next (afterFiring s) := by
      rw [runPhases_succ (by rfl) (exec_advance _), runPhases_succ (by rfl) (exec_ret _)]
      rfl

/-! The obligations. -/

/-- Settles O43: the state a firing leads to (`firing_eq`) has the results of R119's `Fire`, and the fields the firing
does not name are kept. -/
theorem firingRefinesFire : Obligations.FiringRefinesFire := by
  intro s hcheck hfail hph
  refine ⟨_, firing_eq (thisHardware_of_check hcheck) hfail hph, rfl, rfl, ?_, rfl, rfl, rfl, rfl, rfl, rfl, rfl, rfl,
    rfl, rfl, rfl, rfl, rfl, rfl⟩
  rw [← fireEvents_outs]
  exact List.map_append

/-- Settles O44: the words of the appended events are those of R120 (`fireEvents_words`). -/
theorem firingIssuesExactlyThreeCommands : Obligations.FiringIssuesExactlyThreeCommands := by
  intro s hcheck hfail hph
  refine ⟨_, firing_eq (thisHardware_of_check hcheck) hfail hph, ?_, rfl⟩
  rw [← fireEvents_words s.cfg s.tick s.out]
  exact List.map_append

/-- Tick 0 selects a visible 0 at position 0 (R123). -/
theorem select_zero (c : Config) : select c 0 = ⟨0, 0, true⟩ := by
  have hpos : position c 0 = 0 := Nat.zero_mod _
  have hcount : count c 0 = 0 := by rw [count, Nat.zero_div, Nat.zero_div]
  rw [select, hpos, hcount]
  rfl

/-- The latches of a firing at tick 0. -/
theorem latchedForFiring_of_tick_zero (h : s.tick = 0#32) :
    latchedForFiring s =
      { s with firePend := 0#1, ph := Ph.clrdig, tl := 0#32, pos := 0#3, dval := 0#4, vis := 1#1 } := by
  rw [latchedForFiring, h, BitVec.toNat_zero, select_zero]
  rfl

/-- Settles O47: the firing at the last tick leaves tick 0 (`nextTick_of_last`), at which the next firing's first
three phases latch `select(0)` (`runPhases_to_clrdig`, `select_zero`). -/
theorem wrapIsConsistent : Obligations.WrapIsConsistent := by
  intro s hcheck hfail hph hlast
  have hw := thisHardware_of_check hcheck
  have hpos := period_pos hw
  have hzero : (afterFiring s).tick = 0#32 := nextTick_of_last hw (by omega)
  have hnext : firing (afterFiring s) = .next (afterFiring (afterFiring s)) := firing_eq hw hfail rfl
  refine ⟨_, _, _, afterFiring (afterFiring s), firing_eq hw hfail hph, hzero, select_zero s.cfg, rfl,
    runPhases_to_clrdig (s := afterFiring s) hfail rfl 0, ?_⟩
  rw [latchedForFiring_of_tick_zero hzero]
  exact ⟨rfl, rfl, rfl, rfl, rfl, hnext⟩

end Sys2Proof.Machine
end

section
/-!
PROOFS. Progress (42_tick_scheduler.md R122, 60_exceptions.md R153, 70_reset_and_hazards.md R184): with nobody
presenting a bus word a ready machine never stops, its armed timer keeps posting, and a posted firing is accepted
(logs 1, 17).
-/

namespace Sys2Proof.Machine

variable {s t u : State}

/-- A bit that is not raised is 0. -/
theorem bit_eq_zero_of_ne_one : ∀ {b : BitVec 1}, b ≠ 1#1 → b = 0#1 := by decide

/-! A ready machine takes a next step (R155). -/

/-- From CLRDIG on, SEG included, the latches hold a selection, so no phase is refused. -/
theorem exec_phase_completes (hs : BlockInv s) : ∃ u, exec (decodePhase s.ph) s = .next u := by
  obtain ⟨hcheck, -, -, -, hlatched⟩ := hs
  obtain ⟨hph, hd⟩ | ⟨hph, hd⟩ | ⟨hph, hd⟩ | ⟨hph, hd⟩ | ⟨hph, hd⟩ | ⟨hph, hd⟩ | ⟨hph, hd⟩ | ⟨hph, hd⟩ :=
    decodePhase_cases s.ph <;> rw [hd]
  · by_cases h : s.regFail = 0#1 ∧ s.firePend = 1#1
    · exact ⟨_, exec_idle_of_pending h.1 h.2⟩
    · exact ⟨_, exec_idle_of_nothing_to_accept h⟩
  · exact ⟨_, exec_read s⟩
  · exact ⟨_, exec_compute s⟩
  · exact ⟨_, exec_clrdig s⟩
  · rw [hph] at hlatched
    exact ⟨_, exec_seg_of_latched (thisHardware_of_check hcheck) (hlatched (by decide))⟩
  · exact ⟨_, exec_setdig s⟩
  · exact ⟨_, exec_advance s⟩
  · exact ⟨_, exec_ret s⟩

/-- The fetched word decodes to an instruction that completes, wherever it stands. -/
theorem exec_fetched_completes (hs : BlockInv s) (hword : NoWordToRefuse s) :
    ∃ i u, decode (fetch s) = .instr i ∧ exec i s = .next u := by
  cases hbus : s.busIn with
  | some w =>
    rw [fetch_of_busIn hbus]
    obtain ⟨mask, rfl⟩ | ⟨mask, value, hv, rfl⟩ := hword w hbus
    · exact ⟨_, _, decodeBus_clrWord mask, exec_clr mask s⟩
    · exact ⟨_, _, decodeBus_putWord hv, exec_put_of_wellFormed hv s⟩
  | none =>
    by_cases hstrobe : s.strobe = 1#1
    · exact ⟨.fire, _, by rw [fetch_of_strobe hbus hstrobe]; rfl, rfl⟩
    · obtain ⟨u, hu⟩ := exec_phase_completes hs
      exact ⟨_, u, by rw [fetch_of_no_request hbus (bit_eq_zero_of_ne_one hstrobe)]; rfl, hu⟩

/-- A ready machine with no word to refuse takes a next step. -/
theorem step_completes (hr : Ready s) (hs : BlockInv s) (hword : NoWordToRefuse s) : ∃ t, step s = .next t := by
  obtain ⟨i, u, hd, hu⟩ := exec_fetched_completes hs hword
  exact ⟨_, by rw [step_of_ready hr hd, hu]; rfl⟩

/-- A step of a ready machine performs an instruction: it is past boot. -/
theorem exists_exec_of_step (hr : Ready s) (h : step s = .next t) :
    ∃ i u, decode (fetch s) = .instr i ∧ exec i s = .next u ∧ t = retire (fetch s) u := by
  obtain ⟨-, -, hmain, -⟩ := hr
  obtain ⟨i, u, -, hperformed⟩ | ⟨-, -, hboot, -⟩ | ⟨-, -, hboot, -⟩ := step_next_cases h
  · exact ⟨i, u, hperformed⟩
  · simp [hmain] at hboot
  · simp [hmain] at hboot

/-- Retiring a word presents none. -/
theorem retire_busIn_of_none (w : PlacedWord) (h : u.busIn = none) : (retire w u).busIn = none := by
  obtain ⟨_, _, _, _, hretire, hempty⟩ := retire_frame w u
  rw [hretire]
  exact hempty h

/-- After a step of a ready machine the channel is empty: a word in it was the one performed (log 2). -/
theorem busIn_of_step_of_ready (hr : Ready s) (h : step s = .next t) : t.busIn = none := by
  obtain ⟨i, u, hd, he, rfl⟩ := exists_exec_of_step hr h
  obtain ⟨-, -, -, -, -, -, -, -, hkept, -⟩ := exec_frame he
  obtain ⟨w, -, hf, -⟩ | ⟨hbus, -⟩ | ⟨hbus, -⟩ := fetch_instr_cases hd
  · rw [hf]
    rfl
  · exact retire_busIn_of_none _ (hkept.trans hbus)
  · exact retire_busIn_of_none _ (hkept.trans hbus)

/-! The machine left to itself. -/

/-- A ready machine in its invariant, with an empty channel. -/
structure Undisturbed (s : State) : Prop where
  ready : Ready s
  inv : BlockInv s
  quiet : s.busIn = none

/-- One step of a ready machine, by which a word in the channel is gone, and the machine is left to itself. -/
theorem exists_step_to_undisturbed (hr : Ready s) (hs : BlockInv s) (hword : NoWordToRefuse s) :
    ∃ t, step s = .next t ∧ Undisturbed t ∧ t.timer = s.timer := by
  have ⟨_, _, hmain, _⟩ := hr
  obtain ⟨t, ht⟩ := step_completes hr hs hword
  obtain ⟨-, hkept⟩ := runningConfigurationIsReadOnly s t ht
  obtain ⟨hready, -, -, -, -, htimer⟩ := hkept hmain
  exact ⟨t, ht, ⟨hready, stepKeepsBlockInv s t hs ht, busIn_of_step_of_ready hr ht⟩, htimer⟩

theorem Undisturbed.exists_step (h : Undisturbed s) : ∃ t, step s = .next t ∧ Undisturbed t ∧ t.timer = s.timer :=
  exists_step_to_undisturbed h.ready h.inv fun w hw => by simp [h.quiet] at hw

/-- Such a machine runs on for any number of steps. -/
theorem Undisturbed.exists_steps (h : Undisturbed s) (k : Nat) :
    ∃ t, steps k s = .next t ∧ Undisturbed t ∧ t.timer = s.timer := by
  induction k generalizing s with
  | zero => exact ⟨s, rfl, h, rfl⟩
  | succ k ih =>
    obtain ⟨t, hstep, ht, htimer⟩ := h.exists_step
    obtain ⟨u, hsteps, hu, hkept⟩ := ih ht
    exact ⟨u, (steps_succ hstep).trans hsteps, hu, hkept.trans htimer⟩

/-- Its step performs the raised strobe, or the phase and the strobe is sampled anew. -/
theorem Undisturbed.step_cases (h : Undisturbed s) (hstep : step s = .next t) :
    (s.strobe = 1#1 ∧ t = (postFiring s).withStrobe 0#1) ∨
    (s.strobe ≠ 1#1 ∧ ∃ u, PhaseTo s u ∧ t = sampleStrobe u) := by
  obtain ⟨i, u, hd, he, rfl⟩ := exists_exec_of_step h.ready hstep
  obtain ⟨w, hbus, -⟩ | ⟨-, hstrobe, hf, rfl⟩ | ⟨-, hstrobe, hf, rfl⟩ := fetch_instr_cases hd
  · simp [h.quiet] at hbus
  · rw [hf]
    cases he
    exact .inl ⟨hstrobe, rfl⟩
  · rw [hf]
    exact .inr ⟨hstrobe, u, phaseTo_of_exec he, rfl⟩

/-! The timer keeps posting (R153). -/

/-- No phase touches the timer's registration or its delay. -/
theorem PhaseTo.timer_and_due (h : PhaseTo s u) : u.timer = s.timer ∧ u.due = s.due := by
  cases h <;> exact ⟨rfl, rfl⟩

/-- With no strobe raised, a step of an armed timer raises it or shortens the delay by one phase (log 1). -/
theorem Undisturbed.strobe_comes_nearer (h : Undisturbed s) {r : Int} (htimer : s.timer = some r)
    (hlow : s.strobe ≠ 1#1) :
    ∃ t, step s = .next t ∧ Undisturbed t ∧ t.timer = some r ∧ (t.strobe = 1#1 ∨ t.due + 1 = s.due) := by
  obtain ⟨t, hstep, ht, hkept⟩ := h.exists_step
  obtain ⟨hraised, -⟩ | ⟨-, u, hphase, rfl⟩ := h.step_cases hstep
  · exact absurd hraised hlow
  · obtain ⟨hu, hudue⟩ := hphase.timer_and_due
    refine ⟨_, hstep, ht, hkept.trans htimer, ?_⟩
    cases hdue : s.due with
    | zero => exact .inl (by rw [sampleStrobe_due u (hu.trans htimer) (hudue.trans hdue)])
    | succ d => exact .inr (by rw [sampleStrobe_waiting u (hu.trans htimer) (hudue.trans hdue)])

/-- The armed timer raises the strobe, by recursion on the phases its delay still has. -/
theorem Undisturbed.exists_strobe {s : State} (h : Undisturbed s) {r : Int} (htimer : s.timer = some r) :
    ∃ n t, steps n s = .next t ∧ Undisturbed t ∧ t.strobe = 1#1 := by
  by_cases hraised : s.strobe = 1#1
  · exact ⟨0, s, rfl, h, hraised⟩
  · obtain ⟨t, hstep, ht, hkept, hnow | hnearer⟩ := h.strobe_comes_nearer htimer hraised
    · exact ⟨1, t, steps_succ hstep, ht, hnow⟩
    · obtain ⟨n, u, hsteps, hu⟩ := ht.exists_strobe hkept
      exact ⟨n + 1, u, (steps_succ hstep).trans hsteps, hu⟩
termination_by s.due

/-- So a firing comes to be pending. -/
theorem Undisturbed.exists_pending (h : Undisturbed s) {r : Int} (htimer : s.timer = some r) :
    ∃ n t, steps n s = .next t ∧ Undisturbed t ∧ t.firePend = 1#1 := by
  obtain ⟨n, t, hsteps, ht, hraised⟩ := h.exists_strobe htimer
  obtain ⟨u, hstep, hu, -⟩ := ht.exists_step
  obtain ⟨-, rfl⟩ | ⟨hlow, -⟩ := ht.step_cases hstep
  · exact ⟨n + 1, _, (steps_add hsteps).trans (steps_succ hstep), hu, rfl⟩
  · exact absurd hraised hlow

/-! A pending firing is accepted (R152, R184). -/

/-- How many steps at most separate the state from IDLE with no strobe raised: the phases left, each with one strobe
after it, and a strobe raised now (log 17). -/
def stepsToIdle (s : State) : Nat := 2 * (-s.ph).toNat + s.strobe.toNat

theorem stepsToIdle_eq_zero_iff : stepsToIdle s = 0 ↔ s.ph = Ph.idle ∧ s.strobe = 0#1 := by
  have hph : ∀ p : PhaseCode, (-p).toNat = 0 ↔ p = Ph.idle := by decide
  have hstrobe : ∀ b : BitVec 1, b.toNat = 0 ↔ b = 0#1 := by decide
  rw [stepsToIdle, ← hph, ← hstrobe]
  omega

/-- Outside IDLE a phase leaves a pending firing pending (R152). -/
theorem PhaseTo.firePend_of_busy (h : PhaseTo s u) (hbusy : s.ph ≠ Ph.idle) : u.firePend = s.firePend := by
  cases h with
  | accept hph => exact absurd hph hbusy
  | _ => rfl

/-- A step that is not yet the acceptance keeps the firing pending and comes nearer to IDLE. -/
theorem Undisturbed.stepsToIdle_lt (h : Undisturbed s) (hstep : step s = .next t) (hpend : s.firePend = 1#1)
    (hnot : stepsToIdle s ≠ 0) : t.firePend = 1#1 ∧ stepsToIdle t < stepsToIdle s := by
  obtain ⟨hraised, rfl⟩ | ⟨hlow, u, hphase, rfl⟩ := h.step_cases hstep
  · exact ⟨rfl, by simp [stepsToIdle, postFiring_eq, hraised]⟩
  · have hbusy : s.ph ≠ Ph.idle := fun hidle =>
      hnot (stepsToIdle_eq_zero_iff.mpr ⟨hidle, bit_eq_zero_of_ne_one hlow⟩)
    have hcount : ∀ p : PhaseCode, p ≠ Ph.idle → (-p).toNat = (-(p + 1#3)).toNat + 1 := by decide
    have hnext : u.ph = s.ph + 1#3 := hphase.waits_or_ph_next.resolve_left fun hwait => hbusy hwait.1
    have hbit := (sampleStrobe u).strobe.isLt
    refine ⟨by rw [sampleStrobe_firePend, hphase.firePend_of_busy hbusy, hpend], ?_⟩
    rw [stepsToIdle, stepsToIdle, sampleStrobe_ph, hnext, hcount s.ph hbusy]
    omega

/-- A pending firing reaches IDLE, by recursion on the steps left. -/
theorem Undisturbed.exists_idle_of_pending {s : State} (h : Undisturbed s) (hpend : s.firePend = 1#1) :
    ∃ n t, n ≤ stepsToIdle s ∧ steps n s = .next t ∧ Undisturbed t ∧ t.firePend = 1#1 ∧ stepsToIdle t = 0 := by
  by_cases hnow : stepsToIdle s = 0
  · exact ⟨0, s, Nat.zero_le _, rfl, h, hpend, hnow⟩
  · obtain ⟨t, hstep, ht, -⟩ := h.exists_step
    obtain ⟨hkept, hlt⟩ := h.stepsToIdle_lt hstep hpend hnow
    obtain ⟨n, u, hn, hsteps, hu⟩ := ht.exists_idle_of_pending hkept
    exact ⟨n + 1, u, by omega, (steps_succ hstep).trans hsteps, hu⟩
termination_by stepsToIdle s

/-- There the next step accepts it (R111). -/
theorem Undisturbed.step_accepts (h : Undisturbed s) (hpend : s.firePend = 1#1) (hidle : stepsToIdle s = 0) :
    s.ph = Ph.idle ∧ ∃ t, step s = .next t ∧ t.ph = Ph.read ∧ t.firePend = 0#1 := by
  obtain ⟨hph, hlow⟩ := stepsToIdle_eq_zero_iff.mp hidle
  obtain ⟨-, hfail, -, -⟩ := h.ready
  have hfetch : fetch s = .phase Ph.idle := by rw [fetch_of_no_request h.quiet hlow, hph]
  have hstep : step s = .next (sampleStrobe (acceptFiring s)) := by
    rw [step_of_ready (i := .idle) h.ready (by rw [hfetch]; rfl), hfetch, exec_idle_of_pending hfail hpend]
    rfl
  exact ⟨hph, _, hstep, sampleStrobe_ph _, sampleStrobe_firePend _⟩

/-! From boot to the machine left to itself. -/

theorem step_of_configurePins (hcheck : paramCheck s.cfg = none) (hfail : s.regFail = 0#1)
    (hboot : s.boot = .configurePins) : step s = .next (bootPins s) := by
  simp [step, plan, hcheck, hfail, hboot]

theorem step_of_registerTimer (hcheck : paramCheck s.cfg = none) (hfail : s.regFail = 0#1)
    (hboot : s.boot = .registerTimer) (hlaunch : launchReady s = true) : step s = .next (bootRegister s) := by
  simp [step, plan, hcheck, hfail, hboot, hlaunch]

theorem bootRegister_of_regOk (hok : s.cfg.regOk = true) :
    bootRegister s =
      { s with timer := some (-(s.cfg.tickDurationUs : Int)), due := Config.freeDelay s.draws,
               draws := s.draws + 1, boot := .mainLoop } := by
  rw [bootRegister_eq, if_pos hok]

theorem ready_bootRegister (hcheck : paramCheck s.cfg = none) (hfail : s.regFail = 0#1)
    (hok : s.cfg.regOk = true) (hlaunch : launchReady s = true) : Ready (bootRegister s) := by
  rw [bootRegister_of_regOk hok]
  exact ⟨hcheck, hfail, rfl, (launchReady_congr (s := s) rfl rfl rfl rfl).trans hlaunch⟩

/-- A registration that succeeds starts the main loop with an armed timer (R174), and the next step leaves the machine
to itself. -/
theorem exists_undisturbed_of_registerTimer (hs : BlockInv s) (hword : NoWordToRefuse s) (hfail : s.regFail = 0#1)
    (hok : s.cfg.regOk = true) (hboot : s.boot = .registerTimer) (hlaunch : launchReady s = true) :
    ∃ n t r, steps n s = .next t ∧ Undisturbed t ∧ t.timer = some r := by
  have ⟨hcheck, _⟩ := hs
  have hstep := step_of_registerTimer hcheck hfail hboot hlaunch
  have hword' : NoWordToRefuse (bootRegister s) := by rw [bootRegister_of_regOk hok]; exact hword
  obtain ⟨t, ht, hfree, htimer⟩ := exists_step_to_undisturbed (ready_bootRegister hcheck hfail hok hlaunch)
    (stepKeepsBlockInv _ _ hs hstep) hword'
  rw [bootRegister_of_regOk hok] at htimer
  exact ⟨2, t, _, (steps_succ hstep).trans (steps_succ ht), hfree, htimer⟩

/-- Wherever the main program stands, short of a failed registration, the machine comes to run by itself with an armed
timer. -/
theorem exists_undisturbed (hs : BlockInv s) (hboot : BootInv s) (hword : NoWordToRefuse s) (hfail : s.regFail = 0#1)
    (hok : s.cfg.regOk = true) : ∃ n t r, steps n s = .next t ∧ Undisturbed t ∧ t.timer = some r := by
  obtain ⟨hmain, -, hregister, hterminated, -⟩ := hboot
  have ⟨hcheck, _⟩ := hs
  cases hplace : s.boot with
  | configurePins =>
    have hstep := step_of_configurePins hcheck hfail hplace
    obtain ⟨n, t, r, hsteps, ht⟩ := exists_undisturbed_of_registerTimer (s := bootPins s)
      (stepKeepsBlockInv _ _ hs hstep) hword hfail hok rfl (launchReady_bootPins s)
    exact ⟨n + 1, t, r, (steps_succ hstep).trans hsteps, ht⟩
  | registerTimer => exact exists_undisturbed_of_registerTimer hs hword hfail hok hplace (hregister hplace)
  | mainLoop =>
    obtain ⟨hlaunch, -, htimer⟩ := hmain hplace
    obtain ⟨t, hstep, ht, hkept⟩ := exists_step_to_undisturbed ⟨hcheck, hfail, hplace, hlaunch⟩ hs hword
    exact ⟨1, t, _, steps_succ hstep, ht, hkept.trans htimer⟩
  | terminated => exact absurd (hterminated.mpr hplace) (by rw [hfail]; decide)

/-- Settles O57: the machine comes to run by itself, runs for `k` steps more, and then posts a firing and accepts
it. -/
theorem firingsNeverEnd : Obligations.FiringsNeverEnd := by
  intro s hs hboot hword hfail hok k
  obtain ⟨n₁, a, r, hrun₁, ha, htimer⟩ := exists_undisturbed hs hboot hword hfail hok
  obtain ⟨b, hrun₂, hb, hkept⟩ := ha.exists_steps k
  obtain ⟨n₃, c, hrun₃, hc, hpend⟩ := hb.exists_pending (hkept.trans htimer)
  obtain ⟨n₄, t, -, hrun₄, ht, hstill, hnow⟩ := hc.exists_idle_of_pending hpend
  obtain ⟨hidle, u, hstep, hread, htaken⟩ := ht.step_accepts hstill hnow
  have hrun : steps (n₁ + (k + (n₃ + n₄))) s = .next t :=
    (steps_add hrun₁).trans ((steps_add hrun₂).trans ((steps_add hrun₃).trans hrun₄))
  exact ⟨_, t, u, by omega, hrun, hidle, hstill, hstep, hread, htaken⟩

end Sys2Proof.Machine
end

section
/-!
PROOFS. The Bus Driver (43_bus_driver.md R130, R131, R133, R134, R136): the two commands pin by pin, the levels of the
pads, and which instructions reach the pins and the history.
-/

namespace Sys2Proof.Machine

variable {s : State} {c : Config} {mask out value : Word}

/-! One command (R130, R131), pin by pin. -/

theorem clrValue_getLsbD {n : Nat} (hn : n < 32) :
    (clrValue mask out).getLsbD n = if mask.getLsbD n then false else out.getLsbD n := by
  simp only [clrValue, BitVec.getLsbD_and, BitVec.getLsbD_not, hn, decide_true, Bool.true_and]
  cases mask.getLsbD n <;> simp

theorem putValue_getLsbD {n : Nat} (hn : n < 32) :
    (putValue mask value out).getLsbD n = if mask.getLsbD n then value.getLsbD n else out.getLsbD n := by
  simp only [putValue, BitVec.getLsbD_and, BitVec.getLsbD_or, BitVec.getLsbD_not, hn, decide_true, Bool.true_and]
  cases mask.getLsbD n <;> simp

/-- A mask without pins clears nothing (R130). -/
@[simp] theorem clrValue_zero_mask (out : Word) : clrValue 0#32 out = out := by
  rw [clrValue, BitVec.not_zero, BitVec.and_allOnes]

/-- To put 0 on the pins of a mask is to clear them (R131). -/
@[simp] theorem putValue_zero (mask out : Word) : putValue mask 0#32 out = clrValue mask out := by
  rw [putValue, BitVec.zero_and, BitVec.or_zero, clrValue]

/-- The observation gains the value of `OUT` after the command (R133). -/
theorem busHistory_busClr (mask : Word) (s : State) :
    busHistory (busClr mask s) = busHistory s ++ [(busClr mask s).out] := by
  simp [busHistory]

theorem busHistory_busPut (mask value : Word) (s : State) :
    busHistory (busPut mask value s) = busHistory s ++ [(busPut mask value s).out] := by
  simp [busHistory]

/-- Settles O16: the answer is `busClr`, whose `OUT` is `clrValue`, pin by pin `clrValue_getLsbD`. -/
theorem clrClearsTheMaskedPins : Obligations.ClrClearsTheMaskedPins := by
  refine fun mask s => ⟨_, exec_clr mask s, rfl, busHistory_busClr mask s, fun n hn => clrValue_getLsbD hn,
    fun hmask => ?_⟩
  rw [busClr_out, hmask, clrValue_zero_mask]

/-- Settles O17: the answer is `busPut`, whose `OUT` is `putValue`, pin by pin `putValue_getLsbD`. -/
theorem putWritesTheMaskedPins : Obligations.PutWritesTheMaskedPins := by
  refine fun mask value s hin => ⟨_, exec_put_of_wellFormed hin s, rfl, busHistory_busPut mask value s,
    fun n hn => putValue_getLsbD hn, fun hvalue => ?_⟩
  rw [busPut_out, hvalue, putValue_zero, clrValue]

/-! The pads (R134): inverted where the pin configuration says so. -/

/-- A mask distributes over the inversion of the pads. -/
theorem xor_and_distrib_right (x y mask : Word) : (x ^^^ y) &&& mask = (x &&& mask) ^^^ (y &&& mask) := by
  ext n hn
  simp only [BitVec.getElem_and, BitVec.getElem_xor, Bool.and_xor_distrib_right]

/-- A word keeps all its bits in its union with another. -/
theorem or_and_self_left (x y : Word) : (x ||| y) &&& x = x := by
  ext n hn
  simp only [BitVec.getElem_and, BitVec.getElem_or, Bool.and_eq_right_iff_imp, Bool.or_eq_true]
  exact .inl

/-- The pads of inverted pins carry the complement of `OUT`. -/
theorem pads_and_of_inverted (h : s.inv &&& mask = mask) : pads s &&& mask = ~~~s.out &&& mask := by
  calc pads s &&& mask
    _ = (s.out &&& mask) ^^^ mask := by rw [pads, xor_and_distrib_right, h]
    _ = (s.out ^^^ BitVec.allOnes 32) &&& mask := by rw [xor_and_distrib_right, BitVec.allOnes_and]
    _ = ~~~s.out &&& mask := by rw [BitVec.xor_allOnes]

/-- The pads of pins that are not inverted carry `OUT`. -/
theorem pads_and_of_not_inverted (h : s.inv &&& mask = 0#32) : pads s &&& mask = s.out &&& mask := by
  rw [pads, xor_and_distrib_right, h, BitVec.xor_zero]

/-- The segment bus is inverted whole, whatever `INVERT_DIG` is (R30). -/
theorem invertBits_and_segMask (c : Config) : invertBits c &&& segMask c = segMask c := or_and_self_left _ _

/-- The digit-select bus is inverted by `INVERT_DIG` alone: the segment bus shares no pin with it (R27, R30). -/
theorem invertBits_and_digitMask (h : ThisHardware c) :
    invertBits c &&& digitMask c = if c.invertDig then digitMask c else 0#32 := by
  rw [invertBits, BitVec.and_or_distrib_right, h.disjoint, BitVec.zero_or]
  split
  · exact BitVec.and_self
  · exact BitVec.zero_and

theorem busMaskBoth_and_segMask (c : Config) : busMaskBoth c &&& segMask c = segMask c := or_and_self_left _ _

theorem busMaskBoth_and_digitMask (c : Config) : busMaskBoth c &&& digitMask c = digitMask c := by
  rw [busMaskBoth, BitVec.or_comm]
  exact or_and_self_left _ _

/-- On configured pins `INV` is as R30 gives it, on the pins of both buses. -/
theorem inv_and_both_of_launchReady (h : launchReady s = true) :
    s.inv &&& busMaskBoth s.cfg = invertBits s.cfg := by
  obtain ⟨-, -, hinv⟩ := of_decide_eq_true h
  exact hinv

/-- On the pins of one bus `INV` is as R30 gives it there. -/
theorem inv_and_bus_of_launchReady (h : launchReady s = true) (hbus : busMaskBoth s.cfg &&& mask = mask) :
    s.inv &&& mask = invertBits s.cfg &&& mask := by
  rw [← inv_and_both_of_launchReady h, BitVec.and_assoc, hbus]

/-- Settles O37: the segment bus is inverted by `INV` always, the digit-select bus as `INVERT_DIG` says. -/
theorem padsAreInvertedOnce : Obligations.PadsAreInvertedOnce := by
  intro s hcheck hlaunch
  have hseg : s.inv &&& segMask s.cfg = segMask s.cfg :=
    (inv_and_bus_of_launchReady hlaunch (busMaskBoth_and_segMask _)).trans (invertBits_and_segMask _)
  have hdigit : s.inv &&& digitMask s.cfg = if s.cfg.invertDig then digitMask s.cfg else 0#32 :=
    (inv_and_bus_of_launchReady hlaunch (busMaskBoth_and_digitMask _)).trans
      (invertBits_and_digitMask (thisHardware_of_check hcheck))
  refine ⟨pads_and_of_inverted hseg, fun hinvert => pads_and_of_inverted ?_,
    fun hinvert => pads_and_of_not_inverted ?_⟩
  · rw [hdigit, if_pos hinvert]
  · rw [hdigit, hinvert, if_neg Bool.false_ne_true]

/-! Which instructions reach the pins and the history (R133, R136). -/

/-- Settles O41: the answers of the five forms are `busClr` or `busPut`, which record one event with the new `OUT`;
no other answer touches either. -/
theorem historyRecordsEveryCommand : Obligations.HistoryRecordsEveryCommand := by
  intro i s t h
  cases i with
  | clrdig | setdig | clr => cases h; exact .inl ⟨by simp, _, rfl, rfl⟩
  | seg => obtain ⟨_, -, -, rfl⟩ | ⟨-, rfl⟩ := execSeg_next h <;> exact .inl ⟨by simp, _, rfl, rfl⟩
  | put => obtain ⟨-, rfl⟩ := execPut_next h; exact .inl ⟨by simp, _, rfl, rfl⟩
  | idle => obtain ⟨-, -, rfl⟩ | rfl := execIdle_next h <;> exact .inr ⟨by simp, rfl, rfl⟩
  | read | compute | advance | ret | fire => cases h; exact .inr ⟨by simp, rfl, rfl⟩
  | reserved2 | reserved3 => cases h

/-- The pins outside both buses lie outside the mask of either (R26). -/
theorem not_busMaskBoth_and_not (h : mask = segMask c ∨ mask = digitMask c) :
    ~~~busMaskBoth c &&& ~~~mask = ~~~busMaskBoth c := by
  rw [busMaskBoth, BitVec.not_or]
  obtain rfl | rfl := h
  · rw [BitVec.and_comm, ← BitVec.and_assoc, BitVec.and_self]
  · rw [BitVec.and_assoc, BitVec.and_self]

/-- Settles O42: a phase issues no command, or a `CLR` or `PUT` whose mask is one bus (`PhaseCommand`), which keeps
every pin outside that mask. -/
theorem blockChangesOnlyItsPins : Obligations.BlockChangesOnlyItsPins := by
  intro i s t hphase hcheck h
  cases phaseCommand_of_exec hphase hcheck h with
  | none hhistory hout => exact ⟨by rw [hout], fun e he => by simp [hhistory] at he⟩
  | clr mask hmask p ht =>
    subst ht
    refine ⟨clrValue_and_other (not_busMaskBoth_and_not hmask) s.out, fun e he => ?_⟩
    cases List.append_cancel_left he
    rwa [busMask_busWord]
  | put mask value hmask _ p ht =>
    subst ht
    refine ⟨putValue_and_other (not_busMaskBoth_and_not hmask) value s.out, fun e he => ?_⟩
    cases List.append_cancel_left he
    rwa [busMask_busWord]

end Sys2Proof.Machine
end

section
/-!
PROOFS. Exceptions and interrupts (60_exceptions.md): the strobe and the firing it posts (R151, R152, R153), the one
failure (R154, R155), interrupt entry and return (R158, R159, R160), and firings in a row (R163).
-/

namespace Sys2Proof.Machine

variable {s t u : State}

/-! The strobe posts a firing (R151). -/

theorem exec_fire (s : State) : exec .fire s = .next (postFiring s) := rfl

theorem postFiring_of_pending (hpend : s.firePend = 1#1) : postFiring s = s := by
  rw [postFiring_eq, ← hpend]

/-- Settles O20: the answer is the named posting, which writes 1 over 1 where a firing is already pending. -/
theorem firePostsAPendingFiring : Obligations.FirePostsAPendingFiring := fun s =>
  ⟨by rw [exec_fire, postFiring_eq], fun hpend => by rw [exec_fire, postFiring_of_pending hpend]⟩

/-- A ready machine with a raised strobe and an empty channel posts a firing, and the strobe falls (log 2). -/
theorem step_of_strobe (hr : Ready s) (hbus : s.busIn = none) (hraised : s.strobe = 1#1) :
    step s = .next ((postFiring s).withStrobe 0#1) := by
  have hfetch := fetch_of_strobe hbus hraised
  rw [step_of_ready (i := .fire) hr (by rw [hfetch]; rfl), hfetch, exec_fire]
  rfl

/-! A pending firing is taken from IDLE only (R152). -/

/-- The only phase that clears `FIRE_PEND` is the acceptance. -/
theorem PhaseTo.accepts_of_cleared (h : PhaseTo s u) (hpend : s.firePend = 1#1) (hcleared : u.firePend = 0#1) :
    s.ph = Ph.idle ∧ u = acceptFiring s := by
  cases h with
  | accept hph => exact ⟨hph, rfl⟩
  | _ => exact absurd (hpend.symm.trans hcleared) (by decide)

/-- The only step that clears `FIRE_PEND` performs the acceptance. -/
theorem StepTo.accepts_of_cleared (h : StepTo s t) (hpend : s.firePend = 1#1) (hcleared : t.firePend = 0#1) :
    s.ph = Ph.idle ∧ t = sampleStrobe (acceptFiring s) := by
  have hne : (1#1 : BitVec 1) ≠ 0#1 := by decide
  cases h with
  | phase _ _ hp =>
    rw [sampleStrobe_firePend] at hcleared
    obtain ⟨hidle, rfl⟩ := hp.accepts_of_cleared hpend hcleared
    exact ⟨hidle, rfl⟩
  | strobe => exact absurd hcleared hne
  | clr | put | pins | registered | registrationFailed => exact absurd (hpend.symm.trans hcleared) hne

/-- Settles O21: a strobe step is the posting and writes nothing of the firing in progress (`step_of_strobe`), and the
step that clears `FIRE_PEND` is the acceptance (`StepTo.accepts_of_cleared`). -/
theorem firingsDoNotOverlap : Obligations.FiringsDoNotOverlap := by
  refine ⟨fun s hr hbus hraised => ⟨_, step_of_strobe hr hbus hraised, rfl, rfl, rfl, rfl⟩,
    fun s t h hpend hcleared => ?_⟩
  obtain ⟨hidle, rfl⟩ := (stepTo_of_step h).accepts_of_cleared hpend hcleared
  exact ⟨hidle, sampleStrobe_ph _, sampleStrobe_tick _⟩

/-! The one failure (R154, R155). -/

theorem bootRegister_of_not_regOk (hbad : s.cfg.regOk = false) : bootRegister s = raiseRegistrationFailed s := by
  rw [bootRegister, hbad, if_neg Bool.false_ne_true]

/-- After a failed registration there is no further step. -/
theorem step_of_regFail (hcheck : paramCheck s.cfg = none) (hfail : s.regFail = 1#1) :
    step s = .fault .registrationFailed := by
  simp [step, plan, hcheck, hfail]

/-- An instruction answers a next state or is refused. -/
theorem exec_ne_fault (i : Instr) (s : State) (r : Fault) : exec i s ≠ .fault r := by
  intro h
  cases i with
  | idle =>
    by_cases haccept : s.regFail = 0#1 ∧ s.firePend = 1#1
    · cases (exec_idle_of_pending haccept.1 haccept.2).symm.trans h
    · cases (exec_idle_of_nothing_to_accept haccept).symm.trans h
  | seg =>
    by_cases hvis : s.vis = 1#1
    · cases henc : segEncode s.cfg s.dval.toNat with
      | ok pattern => cases (exec_seg_of_visible hvis henc).symm.trans h
      | error r' => cases (exec_seg_of_segEncode_error hvis henc).symm.trans h
    · cases (exec_seg_of_not_visible (bit_eq_zero_of_ne_one hvis)).symm.trans h
  | put mask value =>
    by_cases hv : value &&& ~~~mask = 0#32
    · cases (exec_put_of_wellFormed hv s).symm.trans h
    · cases (exec_put_outside_mask hv s).symm.trans h
  | read | compute | clrdig | setdig | advance | ret | clr | reserved2 | reserved3 | fire => cases h

/-- Settles O33: the registration step raises the failure, whose `REG_FAIL` makes every later step the fault
(`step_of_regFail`); no instruction answers one (`exec_ne_fault`). -/
theorem registrationFailureIsFatal : Obligations.RegistrationFailureIsFatal := by
  refine ⟨fun s hcheck hfail hboot hlaunch hbad => ⟨?_, step_of_regFail hcheck rfl⟩,
    fun s => step_of_regFail, exec_ne_fault⟩
  rw [step_of_registerTimer hcheck hfail hboot hlaunch, bootRegister_of_not_regOk hbad, raiseRegistrationFailed_eq]

/-- Settles O54: a word in the channel, a raised strobe and the phase each complete (`step_completes`). -/
theorem noRunTimeException : Obligations.NoRunTimeException := fun _ => step_completes

/-! The execution context (R158, R159, R160). -/

theorem context_eq_thread_iff : context s = .thread ↔ s.ph = Ph.idle := by
  by_cases h : s.ph = Ph.idle <;> simp [context, h]

theorem context_eq_interrupt_iff : context s = .interrupt ↔ s.ph ≠ Ph.idle := by
  by_cases h : s.ph = Ph.idle <;> simp [context, h]

/-- A performed phase from READ to ADVANCE does not lead to IDLE (R23). -/
theorem PhaseTo.ph_ne_idle_of_busy (h : PhaseTo s u) (hbusy : s.ph ≠ Ph.idle) (hlast : s.ph ≠ Ph.ret) :
    u.ph ≠ Ph.idle := by
  have hwrap : ∀ p : PhaseCode, p ≠ Ph.ret → p + 1#3 ≠ Ph.idle := by decide
  rw [h.waits_or_ph_next.resolve_left fun hwait => hbusy hwait.1]
  exact hwrap s.ph hlast

/-- Settles O36: the context is whether `PH` is IDLE; acceptance sets `PH` to READ, the phases after it lead to the
next code, and RETURN sets IDLE. -/
theorem interruptEntryAndReturn : Obligations.InterruptEntryAndReturn := by
  refine ⟨fun s => context_eq_thread_iff, fun s hfail hpend hidle => ?_, fun s t hbusy hlast h => ?_, fun s => ?_⟩
  · have haccept : exec (decodePhase s.ph) s = .next (acceptFiring s) := by
      rw [hidle]
      exact exec_idle_of_pending hfail hpend
    exact ⟨_, haccept, context_eq_thread_iff.mpr hidle, rfl, rfl, rfl, rfl⟩
  · exact context_eq_interrupt_iff.mpr ((phaseTo_of_exec h).ph_ne_idle_of_busy hbusy hlast)
  · exact ⟨_, exec_ret s, rfl, rfl, rfl⟩

/-! Firings in a row (R163). -/

/-- Firings in a row are the first one and the rest from the state it leads to. -/
theorem firings_succ {n : Nat} (h : firing s = .next u) : firings (n + 1) s = firings n u := by
  simp [firings, h]

/-- One firing moves the tick by one, modulo the period (R117). -/
theorem afterFiring_tick_toNat (hw : ThisHardware s.cfg) :
    (afterFiring s).tick.toNat = (s.tick.toNat + 1) % period s.cfg :=
  nextTick_toNat hw s.tick

/-- Settles O46, by induction on the number of firings: each completes (`firing_eq`) in an IDLE state of the same
build. -/
theorem tickCountsFirings : Obligations.TickCountsFirings := by
  intro n
  induction n with
  | zero =>
    intro s _ _ hph hrange
    exact ⟨s, rfl, (Nat.mod_eq_of_lt hrange).symm, hph⟩
  | succ n ih =>
    intro s hcheck hfail hph _
    have hw := thisHardware_of_check hcheck
    have hrange : (afterFiring s).tick.toNat < period s.cfg := nextTick_lt_period hw s.tick
    obtain ⟨t, hrun, htick, hidle⟩ := ih (afterFiring s) hcheck hfail rfl hrange
    refine ⟨t, (firings_succ (firing_eq hw hfail hph)).trans hrun, ?_, hidle⟩
    calc t.tick.toNat = ((afterFiring s).tick.toNat + n) % period s.cfg := htick
      _ = ((s.tick.toNat + 1) % period s.cfg + n) % period s.cfg := by rw [afterFiring_tick_toNat hw]
      _ = (s.tick.toNat + (n + 1)) % period s.cfg := by rw [Nat.mod_add_mod, Nat.add_assoc, Nat.add_comm 1 n]

/-! Postings recur (R153). -/

/-- Settles O55: the machine comes to run by itself with an armed timer (`exists_undisturbed`), the timer raises the
strobe (`Undisturbed.exists_strobe`), and the next step performs it. -/
theorem postingsRecur : Obligations.PostingsRecur := by
  intro s hs hboot hword hfail hok
  obtain ⟨n₁, a, r, hrun₁, ha, htimer⟩ := exists_undisturbed hs hboot hword hfail hok
  obtain ⟨n₂, t, hrun₂, ht, hraised⟩ := ha.exists_strobe htimer
  exact ⟨n₁ + n₂, t, _, (steps_add hrun₁).trans hrun₂, fetch_of_strobe ht.quiet hraised,
    step_of_strobe ht.ready ht.quiet hraised, rfl⟩

end Sys2Proof.Machine
end

section
/-!
PROOFS. Reset, boot and the bus hazards (70_reset_and_hazards.md R170, R172 to R174, R180 to R182, R184): what reset
and the two boot steps establish, the invariant of boot (R31, R150, R154), ghost-freedom of a firing and of every recorded
bus state, and the bound on the acceptance of a posted firing.
-/

namespace Sys2Proof.Machine

variable {s t u : State} {c : Config}

/-! Reset. -/

/-- Settles O31: each stated value is the field of the reset state, and an IDLE `PH` is thread context. -/
theorem resetState : Obligations.ResetState :=
  ⟨fun _ => ⟨rfl, rfl, rfl, rfl, rfl, rfl, rfl, context_eq_thread_iff.mpr rfl⟩, rfl⟩

theorem bootInv_resetWith (c : Config) : BootInv (State.resetWith c) := by
  refine ⟨fun hmain => ?_, fun _ => ⟨rfl, rfl, rfl, rfl, rfl, rfl⟩, fun hregister => ?_, ?_, fun hterminated => ?_⟩
  · cases hmain
  · cases hregister
  · exact ⟨fun hfail => absurd hfail (by simp), fun hterminated => by cases hterminated⟩
  · cases hterminated

/-- Settles O51: at process start the registers of the boot stages hold their stated values, and no later stage is
reached. -/
theorem resetMeetsBootInv : Obligations.ResetMeetsBootInv := ⟨bootInv_resetWith, bootInv_resetWith _⟩

/-! The two boot steps, and a launch without the first of them (R172 to R174). -/

/-- Settles O32: the first step is `bootPins`, which establishes the launch premise; so the second step is the
registration, which reads the pins but does not write them. -/
theorem bootConfiguresPinsThenRegisters : Obligations.BootConfiguresPinsThenRegisters := by
  intro s hcheck hfail hboot hok
  have hcheck' : paramCheck (bootPins s).cfg = none := by rw [bootPins_cfg, hcheck]
  have hfail' : (bootPins s).regFail = 0#1 := by rw [bootPins_regFail, hfail]
  have hok' : (bootPins s).cfg.regOk = true := by rw [bootPins_cfg, hok]
  have hpins := launchReady_bootPins s
  have hregister := step_of_registerTimer hcheck' hfail' (bootPins_boot s) hpins
  obtain ⟨-, hstill, hmain, hlaunch⟩ := ready_bootRegister hcheck' hfail' hok' hpins
  refine ⟨bootPins s, _, step_of_configurePins hcheck hfail hboot, hregister, bootPins_boot s, bootPins_timer s, hpins,
    hmain, ?_⟩
  rw [bootRegister_of_regOk hok'] at hlaunch hstill ⊢
  exact ⟨by rw [bootPins_cfg], hlaunch, hstill, bootPins_cfg s, bootPins_tick s, bootPins_ph s, bootPins_firePend s,
    bootPins_out s, bootPins_history s⟩

/-- Settles O35: past the pin configuration the plan is the refusal, in both stages (log 12). -/
theorem launchWithoutPinsIsRefused : Obligations.LaunchWithoutPinsIsRefused := by
  intro s hcheck hfail hstage hpins
  have hplan : plan s = .refuse .launchPrecondition := by
    obtain hboot | hboot := hstage <;> simp [plan, hcheck, hfail, hboot, hpins]
  rw [step, hplan]

/-! The invariant of boot. -/

/-- The main loop keeps its invariant with its configuration: nothing is asked there of the registers. -/
theorem SameConfiguration.bootInv (h : SameConfiguration s t) (hmain : s.boot = .mainLoop) (hs : BootInv s) :
    BootInv t := by
  obtain ⟨hrunning, -, -, hfailed, -⟩ := hs
  obtain ⟨hlaunch, hok, htimer⟩ := hrunning hmain
  have hmain' : t.boot = .mainLoop := h.boot.trans hmain
  refine ⟨fun _ => ⟨?_, ?_, ?_⟩, fun hother => absurd hmain' hother, fun hregister => ?_, ?_, fun hterminated => ?_⟩
  · exact (launchReady_congr h.cfg h.gpio h.dir h.inv).trans hlaunch
  · rw [h.cfg, hok]
  · rw [h.timer, h.cfg, htimer]
  · simp [hmain'] at hregister
  · rw [h.regFail, h.boot, hfailed]
  · simp [hmain'] at hterminated

/-- The pin configuration writes only the pins and the stage, and establishes what the next stage needs. -/
theorem bootInv_bootPins (hboot : s.boot = .configurePins) (hs : BootInv s) : BootInv (bootPins s) := by
  obtain ⟨-, hbefore, -, hfailed, -⟩ := hs
  refine ⟨fun hmain => ?_, fun _ => ?_, fun _ => launchReady_bootPins s, ?_, fun hterminated => ?_⟩
  · simp at hmain
  · simpa using hbefore (by simp [hboot])
  · simpa [hboot] using hfailed
  · simp at hterminated

/-- The registration arms the timer and starts the main loop, or fails and terminates the process with the registers
as they are. -/
theorem bootInv_bootRegister (hboot : s.boot = .registerTimer) (hs : BootInv s) : BootInv (bootRegister s) := by
  obtain ⟨-, hbefore, hlaunch, hfailed, -⟩ := hs
  cases hok : s.cfg.regOk with
  | true =>
    rw [bootRegister_of_regOk hok]
    refine ⟨fun _ => ⟨?_, hok, rfl⟩, fun hother => absurd rfl hother, fun hregister => ?_, ?_, fun hterminated => ?_⟩
    · exact (launchReady_congr (s := s) rfl rfl rfl rfl).trans (hlaunch hboot)
    · cases hregister
    · simpa [hboot] using hfailed
    · cases hterminated
  | false =>
    rw [bootRegister_of_not_regOk hok, raiseRegistrationFailed_eq]
    refine ⟨fun hmain => ?_, fun _ => hbefore (by simp [hboot]), fun hregister => ?_, ⟨fun _ => rfl, fun _ => rfl⟩,
      fun _ => hok⟩
    · cases hmain
    · cases hregister

/-- Settles O50: an instruction keeps the configuration of the main loop, and each boot step establishes the next
stage's clause. -/
theorem stepKeepsBootInv : Obligations.StepKeepsBootInv := by
  intro s t hs h
  obtain ⟨i, u, ⟨-, -, hmain, -⟩, -, he, rfl⟩ | ⟨-, -, hboot, rfl⟩ | ⟨-, -, hboot, -, rfl⟩ := step_next_cases h
  · exact (sameConfiguration_of_exec he (fetch s)).bootInv hmain hs
  · exact bootInv_bootPins hboot hs
  · exact bootInv_bootRegister hboot hs

/-! The bus states of a firing (R182). -/

theorem deselectEvent_and_digitMask (c : Config) (out : Word) :
    (deselectEvent c out).out &&& digitMask c = 0#32 :=
  clrValue_and_mask _ _

/-- The state after step d is a masked write of the pattern, also where the pattern is 0. -/
theorem segmentEvent_out (h : ThisHardware c) (r : Selection) (out : Word) :
    (segmentEvent c r out).out = putValue (segMask c) (firePattern c r) out :=
  (putValue_of_value_in_mask (firePattern_and_segMask h r) out).symm

theorem segmentEvent_and_segMask (h : ThisHardware c) (r : Selection) (out : Word) :
    (segmentEvent c r out).out &&& segMask c = firePattern c r := by
  rw [segmentEvent_out h, putValue_and_mask, firePattern_and_segMask h]

theorem segmentEvent_and_digitMask (h : ThisHardware c) (r : Selection) (out : Word) :
    (segmentEvent c r out).out &&& digitMask c = out &&& digitMask c := by
  rw [segmentEvent_out h, putValue_and_other (digitMask_and_not_segMask h)]

theorem selectEvent_out (h : ThisHardware c) {r : Selection} (hr : r.position < 8) (out : Word) :
    (selectEvent c r out).out = putValue (digitMask c) (digBit c r.position) out :=
  (putValue_of_value_in_mask (digBit_and_digitMask h hr) out).symm

theorem selectEvent_and_digitMask (h : ThisHardware c) {r : Selection} (hr : r.position < 8) (out : Word) :
    (selectEvent c r out).out &&& digitMask c = digBit c r.position := by
  rw [selectEvent_out h hr, putValue_and_mask, digBit_and_digitMask h hr]

theorem selectEvent_and_segMask (h : ThisHardware c) {r : Selection} (hr : r.position < 8) (out : Word) :
    (selectEvent c r out).out &&& segMask c = out &&& segMask c := by
  rw [selectEvent_out h hr, putValue_and_other (segMask_and_not_digitMask h)]

/-- Settles O45: the firing's three events (`firing_eq`), each with the bus it writes, and the other bus as the event
before left it. -/
theorem eachFiringIsGhostFree : Obligations.EachFiringIsGhostFree := by
  intro s hcheck hfail hph
  have hw := thisHardware_of_check hcheck
  have hpos := select_position_lt hw s.tick.toNat
  refine ⟨_, _, _, _, firing_eq hw hfail hph, List.map_append, deselectEvent_and_digitMask s.cfg s.out, ?_,
    segmentEvent_and_segMask hw _ _, ?_, selectEvent_and_digitMask hw hpos _⟩
  · exact (segmentEvent_and_digitMask hw _ _).trans (deselectEvent_and_digitMask s.cfg s.out)
  · exact (selectEvent_and_segMask hw hpos _).trans (segmentEvent_and_segMask hw _ _)

/-! Ghost-freedom over a step (R28, R180, R181). -/

/-- What the two buses hold in each phase: the clauses of `GhostInv` on `OUT`. -/
structure BusesFollowPhase (s : State) : Prop where
  deselected : s.ph = Ph.seg ∨ s.ph = Ph.setdig → s.out &&& digitMask s.cfg = 0#32
  shown : s.ph = Ph.setdig → s.out &&& segMask s.cfg = latchedPattern s
  selected : s.ph = Ph.advance ∨ s.ph = Ph.ret →
    s.out &&& digitMask s.cfg = digBit s.cfg s.pos.toNat ∧ s.out &&& segMask s.cfg = latchedPattern s

theorem ghostInv_iff :
    GhostInv s ↔ BlockInv s ∧ s.busIn = none ∧ BusesFollowPhase s ∧ ∀ e ∈ s.history, GhostFreeOut s.cfg e.out :=
  ⟨fun ⟨hblock, hquiet, hdeselected, hshown, hselected, hrecorded⟩ =>
      ⟨hblock, hquiet, ⟨hdeselected, hshown, hselected⟩, hrecorded⟩,
    fun ⟨hblock, hquiet, hbuses, hrecorded⟩ =>
      ⟨hblock, hquiet, hbuses.deselected, hbuses.shown, hbuses.selected, hrecorded⟩⟩

/-- The buses' clauses read the sequencer's registers and `OUT` only. -/
theorem SameSequencer.busesFollowPhase (h : SameSequencer s t) (hout : t.out = s.out) (hs : BusesFollowPhase s) :
    BusesFollowPhase t := by
  have hpattern : latchedPattern t = latchedPattern s := by
    rw [latchedPattern, latchedPattern, h.cfg, h.dval, h.vis]
  refine ⟨?_, ?_, ?_⟩ <;> simp only [h.cfg, h.ph, h.pos, hout, hpattern]
  · exact hs.deselected
  · exact hs.shown
  · exact hs.selected

/-! What is asked of the buses in each phase. -/

/-- Before SEG nothing is asked. -/
theorem busesFollowPhase_of_before_seg {p : PhaseCode} (hph : s.ph = p) (hp : p.toNat < Ph.seg.toNat) :
    BusesFollowPhase s := by
  have hne : ∀ p : PhaseCode, p.toNat < Ph.seg.toNat →
      p ≠ Ph.seg ∧ p ≠ Ph.setdig ∧ p ≠ Ph.advance ∧ p ≠ Ph.ret := by decide
  obtain ⟨hseg, hsetdig, hadvance, hret⟩ := hne s.ph (hph ▸ hp)
  exact ⟨fun h => h.elim (absurd · hseg) (absurd · hsetdig), (absurd · hsetdig),
    fun h => h.elim (absurd · hadvance) (absurd · hret)⟩

theorem busesFollowPhase_of_seg (hph : s.ph = Ph.seg) (hdeselected : s.out &&& digitMask s.cfg = 0#32) :
    BusesFollowPhase s :=
  ⟨fun _ => hdeselected, fun h => absurd h (by rw [hph]; decide), fun h => absurd h (by rw [hph]; decide)⟩

theorem busesFollowPhase_of_setdig (hph : s.ph = Ph.setdig) (hdeselected : s.out &&& digitMask s.cfg = 0#32)
    (hshown : s.out &&& segMask s.cfg = latchedPattern s) : BusesFollowPhase s :=
  ⟨fun _ => hdeselected, fun _ => hshown, fun h => absurd h (by rw [hph]; decide)⟩

theorem busesFollowPhase_of_after_setdig (hph : s.ph = Ph.advance ∨ s.ph = Ph.ret)
    (hselected : s.out &&& digitMask s.cfg = digBit s.cfg s.pos.toNat)
    (hshown : s.out &&& segMask s.cfg = latchedPattern s) : BusesFollowPhase s := by
  have hne : ¬ (s.ph = Ph.seg ∨ s.ph = Ph.setdig) := by obtain hph | hph := hph <;> rw [hph] <;> decide
  exact ⟨(absurd · hne), fun h => absurd (.inr h) hne, fun _ => ⟨hselected, hshown⟩⟩

/-! SEG's pattern. -/

/-- The encoder answers the table's entry, or nothing. -/
theorem eq_of_segEncode {d : Nat} {pattern : BitVec 8} (h : segEncode c d = .ok pattern) :
    pattern = BitVec.ofNat 8 (c.segTable.getD d 0) := by
  unfold segEncode at h
  split at h
  · cases h
  split at h
  next v hentry =>
    split at h
    · cases h; rw [List.getD_eq_getElem?_getD, hentry, Option.getD_some]
    · cases h
  · cases h

theorem latchedPattern_of_visible {pattern : BitVec 8} (hvis : s.vis = 1#1)
    (henc : segEncode s.cfg s.dval.toNat = .ok pattern) : latchedPattern s = segLane s.cfg pattern := by
  rw [latchedPattern, if_pos hvis, eq_of_segEncode henc]

theorem latchedPattern_of_not_visible (hvis : s.vis ≠ 1#1) : latchedPattern s = 0#32 := if_neg hvis

/-- SEG writes the latched pattern, shown or blank, over the segment bus (R115). -/
theorem PhaseTo.out_of_seg (h : PhaseTo s u) (hph : s.ph = Ph.seg) :
    u.out = putValue (segMask s.cfg) (latchedPattern s) s.out := by
  cases h with
  | segShown _ hvis pattern henc => rw [latchedPattern_of_visible hvis henc]; rfl
  | segBlanked _ hvis => rw [latchedPattern_of_not_visible hvis, putValue_zero]; rfl
  | wait hother | accept hother | read hother | compute hother | clrdig hother | setdig hother | advance hother
  | ret hother => exact absurd (hph.symm.trans hother) (by decide)

/-- The latched pattern lies inside the segment bus. -/
theorem latchedPattern_and_segMask (hw : ThisHardware s.cfg) :
    latchedPattern s &&& segMask s.cfg = latchedPattern s := by
  unfold latchedPattern
  split
  · exact segLane_and_segMask hw _
  · exact BitVec.zero_and

/-- After SEG the digits are still deselected, and the segment bus holds the latched pattern. -/
theorem busesFollowPhase_of_pattern_written (hw : ThisHardware s.cfg) (hcfg : u.cfg = s.cfg)
    (hpattern : latchedPattern u = latchedPattern s) (hph : u.ph = Ph.setdig)
    (hout : u.out = putValue (segMask s.cfg) (latchedPattern s) s.out)
    (hdeselected : s.out &&& digitMask s.cfg = 0#32) : BusesFollowPhase u := by
  apply busesFollowPhase_of_setdig hph <;> rw [hcfg, hout]
  · exact (putValue_and_other (digitMask_and_not_segMask hw) _ _).trans hdeselected
  · rw [putValue_and_mask, latchedPattern_and_segMask hw, hpattern]

/-- Each performed phase leaves the buses as the next phase asks. -/
theorem PhaseTo.busesFollowPhase (h : PhaseTo s u) (hw : ThisHardware s.cfg) (hs : BusesFollowPhase s) :
    BusesFollowPhase u := by
  have hwritten := h.out_of_seg
  cases h with
  | wait => exact hs
  | accept => exact busesFollowPhase_of_before_seg (p := Ph.read) rfl (by decide)
  | read => exact busesFollowPhase_of_before_seg (p := Ph.compute) rfl (by decide)
  | compute => exact busesFollowPhase_of_before_seg (p := Ph.clrdig) rfl (by decide)
  | clrdig => exact busesFollowPhase_of_seg rfl (clrValue_and_mask _ _)
  | segShown hph | segBlanked hph =>
    exact busesFollowPhase_of_pattern_written hw rfl rfl rfl (hwritten hph) (hs.deselected (.inl hph))
  | setdig hph =>
    apply busesFollowPhase_of_after_setdig (.inl rfl)
    · exact (putValue_and_mask _ _ _).trans (digBit_and_digitMask hw s.pos.isLt)
    · exact (putValue_and_other (segMask_and_not_digitMask hw) _ _).trans (hs.shown hph)
  | advance hph =>
    obtain ⟨hselected, hshown⟩ := hs.selected (.inl hph)
    exact busesFollowPhase_of_after_setdig (.inr rfl) hselected hshown
  | ret => exact busesFollowPhase_of_before_seg (p := Ph.idle) rfl (by decide)

/-- A phase records nothing, or the one state of the bus phase that led to SEG, SETDIG or ADVANCE. -/
theorem PhaseTo.history_cases (h : PhaseTo s u) :
    u.history = s.history ∨
    ((u.ph = Ph.seg ∨ u.ph = Ph.setdig ∨ u.ph = Ph.advance) ∧
      ∃ e : BusEvent, u.history = s.history ++ [e] ∧ e.out = u.out) := by
  cases h with
  | wait | accept | read | compute | advance | ret => exact .inl rfl
  | clrdig => exact .inr ⟨.inl rfl, _, busClr_history _ s, rfl⟩
  | segShown => exact .inr ⟨.inr (.inl rfl), _, busPut_history _ _ s, rfl⟩
  | segBlanked => exact .inr ⟨.inr (.inl rfl), _, busClr_history _ s, rfl⟩
  | setdig => exact .inr ⟨.inr (.inr rfl), _, busPut_history _ _ s, rfl⟩

/-- The state a bus phase records is ghost-free: no digit is selected in SEG and SETDIG, and in ADVANCE the selected
digit and the pattern are those of the latched tick. -/
theorem ghostFreeOut_of_busesFollowPhase (hblock : BlockInv s) (hs : BusesFollowPhase s)
    (hph : s.ph = Ph.seg ∨ s.ph = Ph.setdig ∨ s.ph = Ph.advance) : GhostFreeOut s.cfg s.out := by
  obtain hph | hph | hph := hph
  · exact .inl (hs.deselected (.inl hph))
  · exact .inl (hs.deselected (.inr hph))
  · obtain ⟨hcheck, -, hrange, -, hlatched⟩ := hblock
    obtain ⟨hdigit, hpattern⟩ := hs.selected (.inl hph)
    rw [hph] at hrange hlatched
    have hl := hlatched (by decide)
    have ⟨hpos, _, _⟩ := hl
    refine .inr ⟨s.tl.toNat, hrange (by decide), ?_, hpattern.trans (latchedPattern_eq_firePattern hl)⟩
    rw [hdigit, hpos, latched_position_toNat (thisHardware_of_check hcheck)]

/-- A performed phase keeps the parameters and presents no word. -/
theorem PhaseTo.cfg_and_busIn (h : PhaseTo s u) : u.cfg = s.cfg ∧ u.busIn = s.busIn := by
  cases h <;> exact ⟨rfl, rfl⟩

/-- Each performed phase keeps ghost-freedom. -/
theorem PhaseTo.ghostInv (h : PhaseTo s u) (hs : GhostInv s) : GhostInv u := by
  obtain ⟨hblock, hquiet, hbuses, hrecorded⟩ := ghostInv_iff.mp hs
  have ⟨hcheck, _⟩ := hblock
  have hblock' := h.blockInv hblock
  have hbuses' := h.busesFollowPhase (thisHardware_of_check hcheck) hbuses
  obtain ⟨hcfg, hbus⟩ := h.cfg_and_busIn
  refine ghostInv_iff.mpr ⟨hblock', hbus.trans hquiet, hbuses', ?_⟩
  obtain hkept | ⟨hph, e, hnew, hout⟩ := h.history_cases
  · rw [hkept, hcfg]
    exact hrecorded
  · rw [hnew, List.forall_mem_append, List.forall_mem_singleton, hout]
    exact ⟨hcfg ▸ hrecorded, ghostFreeOut_of_busesFollowPhase hblock' hbuses' hph⟩

/-- What keeps the sequencer's registers, `OUT`, the channel and the history keeps ghost-freedom. -/
theorem SameSequencer.ghostInv (h : SameSequencer s t) (hout : t.out = s.out) (hbus : t.busIn = s.busIn)
    (hhistory : t.history = s.history) (hs : GhostInv s) : GhostInv t := by
  obtain ⟨hblock, hquiet, hbuses, hrecorded⟩ := ghostInv_iff.mp hs
  refine ghostInv_iff.mpr ⟨h.blockInv hblock, hbus.trans hquiet, h.busesFollowPhase hout hbuses, ?_⟩
  rw [hhistory, h.cfg]
  exact hrecorded

theorem ghostInv_sampleStrobe (hs : GhostInv s) : GhostInv (sampleStrobe s) := by
  obtain ⟨_, _, _, hframe⟩ := sampleStrobe_frame s
  exact (sameSequencer_sampleStrobe s).ghostInv (sampleStrobe_out s) (by rw [hframe]) (by rw [hframe]) hs

/-- With an empty channel no word of it is fetched. -/
theorem fetch_ne_bus (hquiet : s.busIn = none) (w : BusWord) : fetch s ≠ .bus w := by
  intro h
  by_cases hraised : s.strobe = 1#1
  · cases (fetch_of_strobe hquiet hraised).symm.trans h
  · cases (fetch_of_no_request hquiet (bit_eq_zero_of_ne_one hraised)).symm.trans h

/-- Settles O52: a performed phase keeps ghost-freedom (`PhaseTo.ghostInv`); the channel is empty, and the strobe and
boot touch neither the sequencer nor the bus. -/
theorem stepKeepsGhostInv : Obligations.StepKeepsGhostInv := by
  intro s t hs h
  have ⟨_, hquiet, _⟩ := hs
  cases stepTo_of_step h with
  | phase _ _ hp => exact ghostInv_sampleStrobe (hp.ghostInv hs)
  | clr _ hf | put _ hf => exact absurd hf (fetch_ne_bus hquiet _)
  | strobe | registered | registrationFailed =>
    exact SameSequencer.ghostInv ⟨rfl, rfl, rfl, rfl, rfl, rfl, rfl⟩ rfl rfl rfl hs
  | pins =>
    exact (sameSequencer_bootPins s).ghostInv (bootPins_out s) (bootPins_busIn s) (bootPins_history s) hs

/-- Settles O53: in IDLE nothing is asked of the buses, whatever `OUT` is, and nothing is recorded yet. -/
theorem resetMeetsGhostInv : Obligations.ResetMeetsGhostInv := by
  intro c boot hcheck
  have hblock : BlockInv { State.resetWith c with out := boot } :=
    SameSequencer.blockInv ⟨rfl, rfl, rfl, rfl, rfl, rfl, rfl⟩ (blockInv_resetWith hcheck)
  have hbuses : BusesFollowPhase { State.resetWith c with out := boot } :=
    busesFollowPhase_of_before_seg (p := Ph.idle) rfl (by decide)
  exact ghostInv_iff.mpr ⟨hblock, rfl, hbuses, fun _ he => by cases he⟩

/-! The bound on the acceptance (R184). -/

theorem stepsToIdle_le (s : State) : stepsToIdle s ≤ 15 := by
  have hph := (-s.ph).isLt
  have hstrobe := s.strobe.isLt
  rw [stepsToIdle]
  omega

/-- A pending firing of a machine left to itself is accepted (R111, R152). -/
theorem Undisturbed.accepts_pending (h : Undisturbed s) (hpend : s.firePend = 1#1) :
    ∃ n t u, n ≤ 15 ∧ steps n s = .next t ∧ t.ph = Ph.idle ∧ t.firePend = 1#1 ∧
      step t = .next u ∧ u.ph = Ph.read ∧ u.firePend = 0#1 := by
  obtain ⟨n, t, hn, hsteps, ht, hstill, hnow⟩ := h.exists_idle_of_pending hpend
  obtain ⟨hidle, u, hstep, hread, htaken⟩ := ht.step_accepts hstill hnow
  exact ⟨n, t, u, hn.trans (stepsToIdle_le s), hsteps, hidle, hstill, hstep, hread, htaken⟩

/-- A step that performs a word of the channel leaves a pending firing pending. -/
theorem firePend_of_step_of_busWord {w : BusWord} (hr : Ready s) (hbus : s.busIn = some w) (h : step s = .next t) :
    t.firePend = s.firePend := by
  obtain ⟨i, u, hd, he, rfl⟩ := exists_exec_of_step hr h
  rw [fetch_of_busIn hbus] at hd ⊢
  obtain ⟨-, -, rfl⟩ | ⟨-, -, rfl⟩ | ⟨-, rfl⟩ | ⟨-, rfl⟩ := decodeBus_instr hd
  · cases he; rfl
  · obtain ⟨-, rfl⟩ := execPut_next he; rfl
  · cases he
  · cases he

/-- Settles O56: a word in the channel takes one step, and the machine left to itself at most 15 more. -/
theorem postedFiringIsAccepted : Obligations.PostedFiringIsAccepted := by
  intro s hr hs hword hpend
  cases hbus : s.busIn with
  | none =>
    obtain ⟨n, t, u, hn, haccepted⟩ := Undisturbed.accepts_pending ⟨hr, hs, hbus⟩ hpend
    exact ⟨n, t, u, by omega, haccepted⟩
  | some w =>
    obtain ⟨a, hstep, ha, -⟩ := exists_step_to_undisturbed hr hs hword
    have hkept := (firePend_of_step_of_busWord hr hbus hstep).trans hpend
    obtain ⟨n, t, u, hn, hsteps, haccepted⟩ := ha.accepts_pending hkept
    exact ⟨n + 1, t, u, by omega, (steps_succ hstep).trans hsteps, haccepted⟩

end Sys2Proof.Machine
end
